-- ==== Sys2Proof/Word.lean ====
section
/-! DEFINITION. The words of the control link and the sample links, and the small index types that commands
and state share (spec 00_scope.md, Principal quantities; 12_frame_and_record_layouts.md). -/

namespace Sys2Proof

/-- One byte of a frame. -/
abbrev Byte := BitVec 8
/-- A two-byte field. -/
abbrev Half := BitVec 16
/-- A four-byte field; also a phase in 2⁻³² turn (R57, R58). -/
abbrev Word := BitVec 32

/-- An amplifier group (05_amplifier_link.md). -/
inductive Group
  | v
  | i
  deriving DecidableEq, Repr

/-- A pole of the simulated breaker. -/
inductive Pole
  | a
  | b
  | c
  deriving DecidableEq, Repr

/-- The steps whose event can decrement a counter and that a DECREMENT_TO_ZERO command may name (R156):
an edge delivered by a qualification, a window end or an INJECT request, and a state entry at a grid instant. -/
inductive CountedStep
  | qualification (input : Fin 13)
  | windowEnd (input : Fin 13)
  | inject (tag input level : Byte)
  | gridInstant
  deriving DecidableEq, Repr

end Sys2Proof
end

