-- ==== Sys2Proof/Syntax.lean ====
section
/-! DEFINITION. The commands of the FS-620: one constructor per row of spec/opcode_table.json. Requests carry
their tag and the raw fields of R203, in their full width; the other rows carry what arrives with the event. -/

namespace Sys2Proof

/-- The commands. Rows that name an event the block produces itself (a grid instant, a window end, an expiry)
may be issued by the sender or are issued by the block's clock when due (`Machine.nextDue`). -/
inductive Instr
  /-- R4: a good frame of this kind, tag and body completes. -/
  | frameReceived (kind tag : Byte) (body : List Byte)
  /-- R3: the inter-byte gap limit is passed. -/
  | interByteGap
  /-- R8: the last byte of the frame on the outgoing line has been sent. -/
  | frameSent
  | ident (tag : Byte)
  | status (tag : Byte)
  | reset (tag : Byte)
  | chanset (tag channel : Byte) (limit gain offset : Half) (mode : Byte)
  | inset (tag input mode polarity role : Byte) (window : Half)
  | inject (tag input level : Byte)
  | ampon (tag group : Byte)
  | ampoff (tag group : Byte)
  | brkset (tag : Byte) (openA openB openC close arcing charge discrepancy : Word) (side : Byte)
      (openAmp : Half) (posA posB posC spring : Byte)
  | outset (tag output source bit : Byte)
  /-- R135: the body is laid out as R204 states. -/
  | stwrite (tag : Byte) (body : List Byte)
  | stread (tag index : Byte)
  | stclear (tag index : Byte)
  | cntset (tag counter source parameter : Byte)
  | run (tag mode : Byte) (repeats : Half) (gap : Word) (trigger : Byte) (second : Word) (first : Byte)
      (frequency : Word) (action : Byte)
  | halt (tag : Byte)
  | go (tag : Byte)
  | tcal (tag k : Byte)
  | tcalx (tag : Byte)
  | tsec (tag : Byte) (n : Word)
  | repread (tag n : Byte)
  | powerOn
  | resetLineAsserted
  | resetLineReleased
  | ppsEdge
  | internalMark
  | closingPulse
  /-- R37: input 0 is SYNC IN, 1..12 are BI1..BI12. -/
  | qualification (input : Fin 13)
  | windowEnd (input : Fin 13)
  | gridInstant
  /-- R81, R206: number, flags byte and check value as received. -/
  | acknowledgment (group : Group) (number flags : Byte) (check : Half)
  | settlingComplete (group : Group) (number flags : Byte) (check : Half)
  | linkLost (group : Group)
  /-- R89: the acknowledgment that raises the event on one channel (0..3) of the group. -/
  | overloadEvent (group : Group) (channel : Fin 4) (number flags : Byte) (check : Half)
  | contactsParted (pole : Pole)
  | interruptedForced (pole : Pole)
  | closingExpiry (pole : Pole)
  | springCharged
  | discrepancyTrip
  | afterExit (index : Fin 6)
  | guardExpiry
  | limit
  | gapEnd
  | decrementToZero (counter : Fin 4) (via : CountedStep)
  /-- R34: bit n of contacts is set when BI(n+1) is closed; sync is the level of SYNC IN. -/
  | contactSample (contacts : BitVec 12) (sync : Bool)
  /-- R2, R3: the count at which the byte's start bit came, the byte, and whether its stop bit was valid. -/
  | byteReceived (startCount : Nat) (byte : Byte) (stopValid : Bool)
  | acknowledgmentByte (group : Group) (byte : Byte)
  deriving DecidableEq, Repr

end Sys2Proof
end

