-- ==== Sys2Proof/Decode.lean ====
section
/-! DEFINITION. The command a word spells by the table's bits. No row of spec/opcode_table.json gives bits
(all "fields" are empty and none is "fixed"), so no word spells a command; the byte layouts of the control link
(R202 to R206) are read in Sys2Proof/Machine/Operands.lean. -/

namespace Sys2Proof

/-- No row of the table gives bits, so every word is refused. -/
def decodeTableWord (_nbits _w : Nat) : Option Instr := none

end Sys2Proof
end

