-- ==== Sys2Proof/Config.lean ====
section
/-! DEFINITION. The free values: what the spec leaves open and no proof may know. Each is an uninterpreted
constant applied to the plain counter `State.free` (or to nothing), see notes/assumptions. -/

namespace Sys2Proof

/-- Which of several events due at one count is taken first (R4, R18, R194: "either may be taken first"). Log 2. -/
opaque Config.dueChoice : Nat → Nat

/-- The order in which the breaker simulator, the assessment unit and the sequencer act on one contact edge
(R43: "without order among them"). Log 3. -/
opaque Config.consumerOrder : Nat → Fin 6

/-- The next sequence number a REPREAD answer shows after number 4,294,967,295 has been given and before the
wrap (R189 gives no such number). Log 19. -/
opaque Config.nextSeqAtTop : Word

end Sys2Proof
end

