-- ==== Sys2Proof/Machine/Arith.lean ====
section
/-! DEFINITION. Exact integer arithmetic: the three roundings of 00_scope.md, run time (R31), increments and
angles (R60, R61), the sine of R68, the CRC of R1 and little-endian fields (00_scope.md, Byte order). -/

namespace Sys2Proof.Machine

/-- n/d rounded to the nearest, ties away from zero, for a value not below zero. -/
def roundNat (n d : Nat) : Nat := (2 * n + d) / (2 * d)

/-- n/d rounded to the nearest, ties away from zero (00_scope.md, Rounding). -/
def roundDiv (n : Int) (d : Nat) : Int :=
  if 0 ≤ n then (roundNat n.toNat d : Int) else -(roundNat (-n).toNat d : Int)

/-- n/d truncated toward zero (00_scope.md, Rounding). -/
def truncDiv (n : Int) (d : Nat) : Int := Int.tdiv n d

/-- A value brought into lo..hi (00_scope.md, Clamping). -/
def clampNat (lo hi x : Nat) : Nat := if x < lo then lo else if hi < x then hi else x

def clampInt (lo hi x : Int) : Int := if x < lo then lo else if hi < x then hi else x

/-- 10⁹ + c, the divisor of every conversion with a correction c in ppb (R31, R60). -/
def rateBase (c : Int) : Nat := (1000000000 + c).toNat

/-- Run time of oscillator count `count` (R31): floor((T − T0) × 10⁸ / (10⁹ + c_run)); 0 for a count before T0. -/
def runTime (t0 : Nat) (cRun : Int) (count : Nat) : Nat := (count - t0) * 100000000 / rateBase cRun

/-- The expected interval E (R16). -/
def expectedInterval (c : Int) : Nat := (10000000 + roundDiv c 100).toNat

/-- The calibration result c_new (R25) over K pulses and M counts. -/
def calibrated (k m : Nat) : Int := roundDiv (100 * ((m : Int) - 10000000 * (k : Int))) k

/-- Phase increment per sample of a frequency in mHz (R60). -/
def increment (frequency : Nat) (cRun : Int) : Word :=
  BitVec.ofNat 32 (roundNat (frequency * 2 ^ 32 * 1000000000) (20000000 * rateBase cRun))

/-- P(φ), an angle in hundredths of a degree as a phase (R61). -/
def anglePhase (angle : Nat) : Word := BitVec.ofNat 32 (roundNat (angle * 2 ^ 32) 36000)

/-! ### Sine (R68)

sin x = x (1 − x²/(2·3) (1 − x²/(4·5) (…))) with 18 terms, as an exact quotient of integers, for
x = π r / 2³¹ with r in 0..2³⁰ and π to 160 binary places: the quotient differs from the sine by less than
2⁻¹¹⁰. Log 9. -/

/-- floor(π × 2¹⁶⁰). -/
def piScaled : Nat := 4591442807048218921384805199743311128454155024418

/-- Numerator and denominator of the bracket, from its innermost term outward. -/
def sineSeries (xx : Nat) : Nat → Nat × Nat
  | 0 => (1, 1)
  | j + 1 =>
    let inner := sineSeries xx j
    let n := 17 - j
    let den := 2 ^ 382 * ((2 * n) * (2 * n + 1)) * inner.2
    (den - xx * inner.1, den)

/-- The distance of θ from the nearest multiple of a half turn, in 2⁻³² turn: 0..2³⁰. -/
def foldedPhase (theta : Word) : Nat :=
  let half := theta.toNat % 2 ^ 31
  if half ≤ 2 ^ 30 then half else 2 ^ 31 - half

/-- a × |sin(2π θ / 2³²)| rounded; never above a. -/
def sineMagnitude (a : Nat) (theta : Word) : Nat :=
  let x := piScaled * foldedPhase theta
  let s := sineSeries (x * x) 17
  min a (roundNat (a * x * s.1) (2 ^ 191 * s.2))

/-- ac = round(a × sin(2π θ / 2³²)) (R68). -/
def sineCode (a : Nat) (theta : Word) : Int :=
  if theta.toNat < 2 ^ 31 then (sineMagnitude a theta : Int) else -(sineMagnitude a theta : Int)

/-! ### Check value (R1) -/

/-- One bit of the CRC with polynomial x¹⁶+x¹²+x⁵+1, most significant bit first. -/
def crcBit (crc : Half) : Half := if crc.msb then (crc <<< 1) ^^^ 0x1021#16 else crc <<< 1

def crcByte (crc : Half) (b : Byte) : Half :=
  crcBit (crcBit (crcBit (crcBit (crcBit (crcBit (crcBit (crcBit (crc ^^^ (b.setWidth 16 <<< 8)))))))))

/-- The check value over the bytes, initial value FFFFh. -/
def crc16 (bytes : List Byte) : Half := bytes.foldl crcByte 0xFFFF#16

/-! ### Little-endian fields -/

/-- The k low bytes of n, least significant first. -/
def leBytes : Nat → Nat → List Byte
  | 0, _ => []
  | k + 1, n => BitVec.ofNat 8 n :: leBytes k (n / 256)

/-- A signed field of k bytes in two's complement. -/
def leSigned (k : Nat) (z : Int) : List Byte := leBytes k (BitVec.ofInt (8 * k) z).toNat

/-- The value of bytes, least significant first. -/
def leValue : List Byte → Nat
  | [] => 0
  | b :: rest => b.toNat + 256 * leValue rest

/-- The byte at an offset of a body. -/
def byteAt (body : List Byte) (offset : Nat) : Byte := body.getD offset 0

def halfAt (body : List Byte) (offset : Nat) : Half := BitVec.ofNat 16 (leValue ((body.drop offset).take 2))

def wordAt (body : List Byte) (offset : Nat) : Word := BitVec.ofNat 32 (leValue ((body.drop offset).take 4))

/-- A check value as its two bytes, low byte first. -/
def crcBytes (crc : Half) : List Byte := leBytes 2 crc.toNat

end Sys2Proof.Machine
end

