-- ==== Sys2Proof/Machine/State.lean ====
section
/-! DEFINITION. The state of the FS-620 as plain data, block by block (spec chapters 1 to 11), and its value
after a hardware reset. Counts and times are natural numbers (oscillator counts, µs), signed quantities are
integers, phases and bit sets are bit vectors. A value that is present only in one phase of its owner is an
argument of that phase's constructor. -/

namespace Sys2Proof.Machine

/-- One value per pole. -/
structure PerPole (α : Type) where
  a : α
  b : α
  c : α
  deriving DecidableEq, Repr

/-- One value per amplifier group. -/
structure PerGroup (α : Type) where
  v : α
  i : α
  deriving DecidableEq, Repr

/-! ### Names shared by several blocks -/

/-- Direction of an edge; ACTIVE is `true` as a level (R34). -/
inductive Direction
  | inactive
  | active
  deriving DecidableEq, Repr

/-- The sequencer states (R145), in the order of R203's codes. -/
inductive SeqState
  | idle
  | armed
  | running
  | pointing
  | gap
  deriving DecidableEq, Repr

/-- Outcome of a run (R166), in the order of R205's codes. -/
inductive RunOutcome
  | complete
  | halted
  | ampFault
  | table
  | limit
  deriving DecidableEq, Repr

/-- Time base states, in the order of R203's codes. -/
inductive TbState
  | free
  | calibrating
  | locked
  | holdover
  deriving DecidableEq, Repr

/-- Amplifier group states, in the order of R203's codes. -/
inductive GroupState
  | off
  | settling
  | ready
  | fault
  deriving DecidableEq, Repr

/-- The names of the five pole positions, in the order of R203's codes. -/
inductive PositionName
  | closed
  | tripping
  | arcing
  | opened
  | closing
  deriving DecidableEq, Repr

/-- Breaker events that an exit can name (R133), in the order of R204's codes. -/
inductive BreakerEvent
  | poleOpen (pole : Pole)
  | anyOpen
  | allOpen
  | allClosed
  | closeBlocked
  | closeRefused
  | discrepancyTrip
  deriving DecidableEq, Repr

/-! ### Records of the report store (R190, R195) -/

inductive RunMode
  | single
  | repeated
  | triggered
  deriving DecidableEq, Repr

inductive RunTrigger
  | immediate
  | go
  | sync
  | atSecond
  deriving DecidableEq, Repr

inductive OverloadAction
  | abort
  | record
  deriving DecidableEq, Repr

/-- Subject of a BREAKER record (R115). -/
inductive BreakerSubject
  | pole (p : Pole)
  | mechanism
  deriving DecidableEq, Repr

/-- Event of a BREAKER record, in the order of R195's codes. -/
inductive BreakerRecord
  | tripAccepted
  | contactsParted
  | interrupted
  | interruptedForced
  | tripFree
  | closed
  | resolved
  | closeAccepted
  | closeBlocked
  | closeRefused
  | allClosed
  | springCharged
  | discrepancyTrip
  deriving DecidableEq, Repr

/-- Decision of an assessment item (R176 to R180), in the order of R205's codes. -/
inductive Decision
  | early
  | pass
  | late
  | missing
  | fail
  | abandoned
  deriving DecidableEq, Repr

inductive AmpEvent
  | linkLost
  | overTemp
  | overload
  deriving DecidableEq, Repr

inductive TimeEvent
  | holdover
  | relocked
  | calDone
  | calRejected
  | calFailed
  | epochSet
  deriving DecidableEq, Repr

/-- The body of a record, one constructor per kind (R195); an optional field is an Option. -/
inductive RecordBody
  | runStart (mode : RunMode) (trigger : RunTrigger) (first : Fin 24) (frequency : Nat) (cRun : Int)
      (absoluteSecond : Option Nat) (holdover : Bool)
  | stateEntry (state : Fin 24) (visit entryTime : Nat) (fromState : Option (Fin 24))
      (exitIndex : Option (Fin 6)) (exitTime causeTime : Option Nat)
  | inputEdge (input : Fin 13) (direction : Direction) (edgeTime : Nat) (noise : Bool)
      (glitches bounces : Nat) (injected : Bool)
  | breaker (subject : BreakerSubject) (event : BreakerRecord) (duration : Option Nat)
  | assess (state : Fin 24) (visit : Nat) (item : Nat) (outcome : Decision) (measured : Option Int)
  | clip (channel : Fin 8) (start : Bool) (yRaw : Option Int)
  | amp (group : Group) (event : AmpEvent) (channel : Option (Fin 8))
  | time (event : TimeEvent) (correction : Option Int) (second : Option Nat)
  | runEnd (outcome : RunOutcome) (runTime visited pass nonPass lost : Nat)
  deriving DecidableEq, Repr

/-- A stored record: its head (R190) and body. The presence mask is computed from the body (R196). -/
structure Record where
  seq : Nat
  run : Nat
  time : Nat
  body : RecordBody
  deriving DecidableEq, Repr

/-- The run window (R191): the run number and the lost count. -/
structure RunWindow where
  run : Nat
  lost : Nat
  deriving DecidableEq, Repr

structure ReportStore where
  /-- Oldest first. The fill is the length (R187). -/
  records : List Record
  nextSeq : Nat
  window : Option RunWindow
  /-- The fill notice is ARMED (R200). -/
  fillArmed : Bool
  deriving DecidableEq, Repr

/-! ### Control link (chapter 1) -/

/-- Answer statuses (R7). -/
inductive Status
  | ok
  | clamped
  | unknown
  | length
  | range
  | busy
  | active
  | notReady
  | noRoom
  | noTime
  | empty
  | order
  | overrun
  deriving DecidableEq, Repr

/-- A received request: the raw fields of R203, or what the control link's own checks refuse (R6). -/
inductive Request
  | ident
  | status
  | reset
  | chanset (channel : Byte) (limit gain offset : Half) (mode : Byte)
  | inset (input mode polarity role : Byte) (window : Half)
  | inject (input level : Byte)
  | ampon (group : Byte)
  | ampoff (group : Byte)
  | brkset (openA openB openC close arcing charge discrepancy : Word) (side : Byte)
      (openAmp : Half) (posA posB posC spring : Byte)
  | outset (output source bit : Byte)
  | stwrite (body : List Byte)
  | stread (index : Byte)
  | stclear (index : Byte)
  | cntset (counter source parameter : Byte)
  | run (mode : Byte) (repeats : Half) (gap : Word) (trigger : Byte) (second : Word) (first : Byte)
      (frequency : Word) (action : Byte)
  | halt
  | go
  | tcal (k : Byte)
  | tcalx
  | tsec (n : Word)
  | repread (n : Byte)
  /-- The kind is no request kind. -/
  | unknownKind (kind : Byte)
  /-- The kind is a request kind and the body length is not allowed for it. -/
  | wrongLength (kind : Byte)
  deriving DecidableEq, Repr

structure HeldRequest where
  tag : Byte
  request : Request
  deriving DecidableEq, Repr

/-- An answer: the kind byte and tag of the request answered, the status, the kind's answer body, and whether
it is the answer of the request in service (R5, R8). -/
structure Answer where
  requestKind : Byte
  tag : Byte
  status : Status
  payload : List Byte
  fromService : Bool
  deriving DecidableEq, Repr

/-- Causes of a notice, in the order of R203's codes from 1. -/
inductive NoticeCause
  | runEnd
  | chainEnd
  | ampFault
  | timebase
  | fill
  deriving DecidableEq, Repr

/-- The content of a STATUS answer and of a notice (R12). -/
structure Snapshot where
  seqState : SeqState
  runNumber : Nat
  current : Option (Fin 24)
  pendingTarget : Option (Fin 24)
  lastOutcome : Option RunOutcome
  poles : PerPole PositionName
  springCharged : Bool
  marks : BitVec 16
  counters : Vector Nat 4
  /-- Bit 0 SYNC IN, bit n BIn. -/
  levels : BitVec 16
  outputs : BitVec 8
  tbState : TbState
  correction : Int
  pendingCorrection : Option Int
  second : Nat
  epoch : Bool
  groups : PerGroup GroupState
  fill : Nat
  deriving DecidableEq, Repr

structure Notice where
  cause : NoticeCause
  snapshot : Snapshot
  deriving DecidableEq, Repr

/-- A frame the part sends (R10). -/
inductive OutFrame
  | answer (a : Answer)
  | notice (n : Notice)
  deriving DecidableEq, Repr

/-- The frame on the outgoing line and the count at which its transmission began. -/
structure Transmission where
  frame : OutFrame
  start : Nat
  deriving DecidableEq, Repr

/-- The receiver's phase with the bytes taken so far (R2). The two length bytes of a frame in BODY or CHECK are
the body's length. -/
inductive Receiver
  | hunt
  | sync
  | header (fields : List Byte)
  | body (length : Nat) (kind tag : Byte) (got : List Byte)
  | check (kind tag : Byte) (body : List Byte) (low : Option Byte)
  deriving DecidableEq, Repr

structure ControlLink where
  receiver : Receiver
  lastStop : Nat
  inService : Option HeldRequest
  holding : Option HeldRequest
  answers : List Answer
  notice : Option Notice
  line : Option Transmission
  deriving DecidableEq, Repr

/-! ### Time base (chapter 2) -/

/-- WAITING for the opening pulse, or COUNTING from the opening count (R24). -/
inductive CalPhase
  | waiting
  | counting (opening : Nat)
  deriving DecidableEq, Repr

structure Calibration where
  k : Nat
  prior : TbState
  phase : CalPhase
  pulses : Nat
  deriving DecidableEq, Repr

structure RunLatch where
  t0 : Nat
  cRun : Int
  deriving DecidableEq, Repr

structure TimeBase where
  prevMark : Option Nat
  interval : Nat
  internalRun : Nat
  pulseRun : Nat
  second : Nat
  epoch : Bool
  armedSecond : Option Nat
  c : Int
  pendingC : Option Int
  state : TbState
  cal : Option Calibration
  latch : Option RunLatch
  deriving DecidableEq, Repr

/-! ### Contact inputs (chapter 3) -/

inductive InputMode
  | off
  | contact
  | injected
  deriving DecidableEq, Repr

inductive Polarity
  | activeClosed
  | activeOpen
  deriving DecidableEq, Repr

inductive Role
  | timing
  | tripA
  | tripB
  | tripC
  | trip3P
  | close
  deriving DecidableEq, Repr

/-- The three most recent raw samples; true is closed (SYNC IN: high). -/
structure RawHistory where
  newest : Bool
  middle : Bool
  oldest : Bool
  deriving DecidableEq, Repr

/-- Qualifier phase (R37, R39). A candidate holds the count of its first sample and its logical samples, first
sample first; a window holds its end count. -/
inductive Qualifier
  | steady
  | candidate (first : Nat) (samples : List Bool)
  | window (endCount : Nat)
  deriving DecidableEq, Repr

/-- The pending record of an edge (R46), apart from the input and the bounce count. -/
structure PendingEdge where
  direction : Direction
  edgeTime : Nat
  noise : Bool
  glitches : Nat
  injected : Bool
  deriving DecidableEq, Repr

structure ContactInput where
  mode : InputMode
  polarity : Polarity
  role : Role
  /-- Debounce window W in µs. -/
  window : Nat
  history : RawHistory
  /-- Settled level; true is active. -/
  settled : Bool
  qualifier : Qualifier
  glitches : Nat
  bounces : Nat
  pendingEdge : Option PendingEdge
  deriving DecidableEq, Repr

/-- SYNC IN (R49): its qualifier is never in a window. Its pending record exists only while its edge is being
delivered (log 16). -/
structure SyncInput where
  history : RawHistory
  settled : Bool
  qualifier : Qualifier
  glitches : Nat
  pendingEdge : Option PendingEdge
  deriving DecidableEq, Repr

structure ContactInputs where
  inputs : Vector ContactInput 12
  sync : SyncInput
  /-- Count of the next contact sample (R34). -/
  nextSample : Nat
  deriving DecidableEq, Repr

/-! ### Waveform synthesis (chapter 4) -/

structure ChannelSettings where
  limit : Nat
  gain : Nat
  offset : Int
  deriving DecidableEq, Repr

inductive IeMode
  | independent
  | residual
  deriving DecidableEq, Repr

/-- The live channel record. -/
structure LiveRecord where
  theta : Word
  dTheta : Word
  aFix : Int
  rampStep : Int
  rampTarget : Nat
  d : Int
  sPrev : Int
  clip : Bool
  deriving DecidableEq, Repr

structure Synthesis where
  settings : Vector ChannelSettings 8
  ieMode : IeMode
  live : Vector LiveRecord 8
  decay : Nat
  r : Word
  dRef : Word
  /-- Count of the next grid instant, and of the last one taken (R54, R55). -/
  nextGrid : Nat
  lastGrid : Option Nat
  /-- The codes last handed to the amplifier link (R75, R79). -/
  codes : Vector Int 8
  deriving DecidableEq, Repr

/-! ### Amplifier link (chapter 5) -/

/-- A sample frame on a sample link (R206). -/
structure SampleFrame where
  number : Byte
  codes : Vector Int 4
  deriving DecidableEq, Repr

structure AmpGroup where
  state : GroupState
  frameNumber : Byte
  outstanding : Option Byte
  acked : Nat
  missed : Nat
  overRun : Vector Nat 4
  /-- Overload episode open. -/
  episode : Vector Bool 4
  /-- The bytes of a partial acknowledgment; empty while waiting for 5Ah (R206). -/
  receiver : List Byte
  /-- The frame last put on the sample link. -/
  lastFrame : Option SampleFrame
  deriving DecidableEq, Repr

abbrev AmpLink := PerGroup AmpGroup

/-! ### Breaker simulator (chapter 6) -/

/-- A pole's position with the start time it holds (run time in µs). -/
inductive Position
  | closed
  | tripping (start : Nat)
  | arcing (start : Nat)
  | opened
  | closing (start : Nat)
  deriving DecidableEq, Repr

/-- The spring; the charge start is present while CHARGING and ACTIVE. -/
inductive Spring
  | charged
  | charging (start : Option Nat)
  deriving DecidableEq, Repr

inductive Discrepancy
  | idle
  | timing (start : Nat)
  | spent (start : Nat)
  deriving DecidableEq, Repr

inductive VoltageSide
  | bus
  | line
  deriving DecidableEq, Repr

structure BreakerSettings where
  opening : PerPole Nat
  closing : Nat
  arcing : Nat
  charge : Nat
  discrepancy : Nat
  side : VoltageSide
  openAmp : Nat
  /-- Initial position CLOSED. -/
  initialClosed : PerPole Bool
  /-- Initial spring CHARGED. -/
  initialCharged : Bool
  deriving DecidableEq, Repr

structure Breaker where
  settings : BreakerSettings
  poles : PerPole Position
  spring : Spring
  discrepancy : Discrepancy
  active : Bool
  deriving DecidableEq, Repr

/-! ### Binary outputs (chapter 7) -/

/-- Sources, in the order of R203's codes. -/
inductive OutSource
  | fixedOpen
  | fixedClosed
  | poleAA
  | poleAB
  | poleBA
  | poleBB
  | poleCA
  | poleCB
  | allA
  | anyB
  | spring
  | stateBit
  | runActive
  deriving DecidableEq, Repr

structure BinaryOutputs where
  sources : Vector OutSource 8
  bits : Vector (Fin 8) 8
  /-- Output state; true is closed. -/
  outputs : Vector Bool 8
  pattern : BitVec 8
  deriving DecidableEq, Repr

/-! ### State table (chapter 8) -/

inductive PhaseMode
  | set
  | keep
  deriving DecidableEq, Repr

inductive DcMode
  | continueDc
  | noDc
  | holdDc
  deriving DecidableEq, Repr

/-- One channel part (R131). -/
structure ChannelPart where
  amplitude : Nat
  angle : Nat
  frequency : Nat
  rampTarget : Nat
  rampTime : Nat
  phaseMode : PhaseMode
  dcMode : DcMode
  deriving DecidableEq, Repr

/-- Exit triggers with their parameters (R133). -/
inductive Trigger
  | after (t : Nat)
  | edge (input : Fin 13) (direction : Direction)
  | sync
  | go
  | breaker (event : BreakerEvent)
  | count (counter : Fin 4)
  | mark (mark : Fin 16)
  deriving DecidableEq, Repr

inductive Target
  | state (n : Fin 24)
  | finish
  deriving DecidableEq, Repr

inductive MarkAction
  | set (mark : Fin 16)
  | clear (mark : Fin 16)
  deriving DecidableEq, Repr

structure Exit where
  trigger : Trigger
  target : Target
  action : Option MarkAction
  deriving DecidableEq, Repr

inductive Subject
  | edge (input : Fin 13) (direction : Direction)
  | anyOpen
  | allClosed
  deriving DecidableEq, Repr

inductive ItemKind
  | expect
  | forbid
  deriving DecidableEq, Repr

structure Item where
  subject : Subject
  kind : ItemKind
  lo : Nat
  hi : Nat
  deriving DecidableEq, Repr

/-- The content of a READY entry (R130). -/
structure Entry where
  channels : Vector ChannelPart 8
  decay : Nat
  guard : Nat
  inception : Option Nat
  pattern : BitVec 8
  loads : Vector (Option Nat) 4
  exits : List Exit
  items : List Item
  deriving DecidableEq, Repr

/-- Decrement sources of a counter with their parameter (R142). -/
inductive CounterSource
  | none
  | edge (input : Fin 13)
  | tripAccepted
  | closeAccepted
  | entry (state : Fin 24)
  deriving DecidableEq, Repr

structure StateTable where
  /-- `none` is EMPTY. -/
  entries : Vector (Option Entry) 24
  sources : Vector CounterSource 4
  deriving DecidableEq, Repr

/-! ### Sequencer (chapter 9) -/

structure RunSettings where
  mode : RunMode
  repeats : Nat
  gap : Nat
  trigger : RunTrigger
  second : Nat
  first : Fin 24
  frequency : Nat
  action : OverloadAction
  deriving DecidableEq, Repr

structure TakenExit where
  target : Target
  index : Fin 6
  exitTime : Nat
  causeTime : Option Nat
  deriving DecidableEq, Repr

structure Latch where
  index : Fin 6
  causeTime : Nat
  deriving DecidableEq, Repr

structure Guard where
  expiry : Nat
  latch : Option Latch
  deriving DecidableEq, Repr

structure Sequencer where
  state : SeqState
  settings : Option RunSettings
  remainder : Nat
  runNumber : Nat
  current : Option (Fin 24)
  taken : Option TakenExit
  guard : Option Guard
  visits : Vector Nat 24
  visited : Nat
  marks : BitVec 16
  counters : Vector Nat 4
  gapEnd : Option Nat
  lastOutcome : Option RunOutcome
  /-- The next sample judged is the entry sample of the visit (R158). -/
  entrySample : Bool
  /-- A calibration has finished with a result since the present run was armed, which then latches the old correction
(R151; log 10). -/
  resultHeld : Bool
  deriving DecidableEq, Repr

/-! ### Assessment (chapter 10) -/

/-- An item of the visit under way; `none` is OPEN. -/
structure ItemRun where
  item : Item
  decision : Option Decision
  measured : Option Int
  deriving DecidableEq, Repr

structure Visit where
  state : Fin 24
  count : Nat
  entryTime : Nat
  items : List ItemRun
  deriving DecidableEq, Repr

structure Assessment where
  visit : Option Visit
  pass : Nat
  nonPass : Nat
  deriving DecidableEq, Repr

/-! ### The whole part -/

/-- The state of the part. -/
structure State where
  /-- Oscillator count (R15). -/
  count : Nat
  /-- The RESET line is asserted. -/
  resetLine : Bool
  /-- Levels of BI1..BI12 (bit n is BI(n+1), set when closed) and of SYNC IN. -/
  contactLines : BitVec 12
  syncLine : Bool
  cl : ControlLink
  tb : TimeBase
  ci : ContactInputs
  ws : Synthesis
  al : AmpLink
  bs : Breaker
  bo : BinaryOutputs
  st : StateTable
  sq : Sequencer
  asmt : Assessment
  rs : ReportStore
  /-- The model's own: how many free choices have been consumed (Config). -/
  free : Nat
  /-- The commands waiting, first in first out. -/
  pending : List Instr
  deriving DecidableEq, Repr

/-- No command stops the part: the spec gives every command an effect, a refusal status, or nothing to change.
So there is no fault to raise; the type has no constructor (safe; log 23). -/
inductive Fault
  deriving DecidableEq, Repr

/-- The reasons for which a command could have no meaning in this model. -/
inductive Refusal
  /-- The command of this mnemonic has no meaning yet: raised by exec's arms of that form alone (safe). No arm
  of this model is of that form. -/
  | notModelled (mnemonic : String)
  deriving DecidableEq, Repr

/-! ### Values after reset (R14, R33, R51, R79, R92, R120, R129, R144, R171, R186, R201) -/

def ControlLink.reset : ControlLink :=
  { receiver := .hunt, lastStop := 0, inService := none, holding := none, answers := [], notice := none
    line := none }

def TimeBase.reset : TimeBase :=
  { prevMark := none, interval := 10000000, internalRun := 0, pulseRun := 0, second := 0, epoch := false
    armedSecond := none, c := 0, pendingC := none, state := .free, cal := none, latch := none }

/-- Three open (low) samples. -/
def RawHistory.reset : RawHistory := ⟨false, false, false⟩

def ContactInput.reset : ContactInput :=
  { mode := .off, polarity := .activeClosed, role := .timing, window := 2000, history := .reset
    settled := false, qualifier := .steady, glitches := 0, bounces := 0, pendingEdge := none }

def SyncInput.reset : SyncInput :=
  { history := .reset, settled := false, qualifier := .steady, glitches := 0, pendingEdge := none }

def ContactInputs.reset : ContactInputs :=
  { inputs := .replicate 12 .reset, sync := .reset, nextSample := 0 }

def ChannelSettings.reset : ChannelSettings := { limit := 32767, gain := 32768, offset := 0 }

/-- A cleared live record (R57). -/
def LiveRecord.cleared : LiveRecord :=
  { theta := 0, dTheta := 0, aFix := 0, rampStep := 0, rampTarget := 0, d := 0, sPrev := 0, clip := false }

def Synthesis.reset : Synthesis :=
  { settings := .replicate 8 .reset, ieMode := .independent, live := .replicate 8 .cleared, decay := 0
    r := 0, dRef := 0, nextGrid := 0, lastGrid := none, codes := .replicate 8 0 }

def AmpGroup.reset : AmpGroup :=
  { state := .off, frameNumber := 255, outstanding := none, acked := 0, missed := 0
    overRun := .replicate 4 0, episode := .replicate 4 false, receiver := [], lastFrame := none }

def AmpLink.reset : AmpLink := ⟨.reset, .reset⟩

def BreakerSettings.reset : BreakerSettings :=
  { opening := ⟨30000, 30000, 30000⟩, closing := 60000, arcing := 20000, charge := 3000000, discrepancy := 0
    side := .bus, openAmp := 0, initialClosed := ⟨true, true, true⟩, initialCharged := true }

def Breaker.reset : Breaker :=
  { settings := .reset, poles := ⟨.closed, .closed, .closed⟩, spring := .charged, discrepancy := .idle
    active := false }

def BinaryOutputs.reset : BinaryOutputs :=
  { sources := .replicate 8 .fixedOpen, bits := .replicate 8 0, outputs := .replicate 8 false, pattern := 0 }

def StateTable.reset : StateTable := { entries := .replicate 24 none, sources := .replicate 4 .none }

def Sequencer.reset : Sequencer :=
  { state := .idle, settings := none, remainder := 0, runNumber := 0, current := none, taken := none
    guard := none, visits := .replicate 24 0, visited := 0, marks := 0, counters := .replicate 4 0
    gapEnd := none, lastOutcome := none, entrySample := false, resultHeld := false }

def Assessment.reset : Assessment := { visit := none, pass := 0, nonPass := 0 }

def ReportStore.reset : ReportStore := { records := [], nextSeq := 1, window := none, fillArmed := true }

/-- The part right after a hardware reset is released (R15: count 0). -/
def State.reset : State :=
  { count := 0, resetLine := false, contactLines := 0, syncLine := false, cl := .reset, tb := .reset
    ci := .reset, ws := .reset, al := .reset, bs := .reset, bo := .reset, st := .reset, sq := .reset
    asmt := .reset, rs := .reset, free := 0, pending := [] }

end Sys2Proof.Machine
end

