-- ==== Sys2Proof/Machine/Operands.lean ====
section
/-! DEFINITION. Every operand form of the requests: the codes of R202 to R204, the request bodies of R203, the
checks and readers of the STWRITE body (R135, R136, R204), and the clamps of every physical quantity. -/

namespace Sys2Proof.Machine

/-! ### Per-pole and per-group access, poles and channels (R52) -/

def PerPole.get {α : Type} (x : PerPole α) : Pole → α
  | .a => x.a
  | .b => x.b
  | .c => x.c

def PerPole.put {α : Type} (x : PerPole α) (p : Pole) (v : α) : PerPole α :=
  match p with
  | .a => { x with a := v }
  | .b => { x with b := v }
  | .c => { x with c := v }

def PerPole.map {α β : Type} (f : α → β) (x : PerPole α) : PerPole β := ⟨f x.a, f x.b, f x.c⟩

def PerGroup.get {α : Type} (x : PerGroup α) : Group → α
  | .v => x.v
  | .i => x.i

def PerGroup.put {α : Type} (x : PerGroup α) (g : Group) (v : α) : PerGroup α :=
  match g with
  | .v => { x with v := v }
  | .i => { x with i := v }

/-- The poles in pole order. -/
def poleOrder : List Pole := [.a, .b, .c]

/-- Current channels (R52). -/
def isCurrent (ch : Fin 8) : Bool := 4 ≤ ch.val

/-- The pole a channel is tied to (R52). -/
def poleOf (ch : Fin 8) : Option Pole :=
  match ch.val with
  | 0 => some .a
  | 1 => some .b
  | 2 => some .c
  | 4 => some .a
  | 5 => some .b
  | 6 => some .c
  | _ => none

/-- The current channel of a pole (R103). -/
def currentChannel : Pole → Fin 8
  | .a => 4
  | .b => 5
  | .c => 6

/-- A channel of a group as waveform synthesis numbers it (R52, R89). -/
def groupChannel (g : Group) (k : Fin 4) : Fin 8 :=
  match g with
  | .v => ⟨k.val, by omega⟩
  | .i => ⟨4 + k.val, by omega⟩

/-! ### Codes (R202, R203, R204) -/

def groupOfCode : Nat → Option Group
  | 0 => some .v
  | 1 => some .i
  | _ => none

def InputMode.ofCode : Nat → Option InputMode
  | 0 => some .off
  | 1 => some .contact
  | 2 => some .injected
  | _ => none

def Polarity.ofCode : Nat → Option Polarity
  | 0 => some .activeClosed
  | 1 => some .activeOpen
  | _ => none

def Role.ofCode : Nat → Option Role
  | 0 => some .timing
  | 1 => some .tripA
  | 2 => some .tripB
  | 3 => some .tripC
  | 4 => some .trip3P
  | 5 => some .close
  | _ => none

/-- A code of two values, 0 and 1: inactive/active, absent/present, INDEPENDENT/RESIDUAL, and the like. -/
def twoValued : Nat → Option Bool
  | 0 => some false
  | 1 => some true
  | _ => none

def directionOfCode (n : Nat) : Option Direction :=
  match twoValued n with
  | some true => some .active
  | some false => some .inactive
  | none => none

def OutSource.ofCode : Nat → Option OutSource
  | 0 => some .fixedOpen
  | 1 => some .fixedClosed
  | 2 => some .poleAA
  | 3 => some .poleAB
  | 4 => some .poleBA
  | 5 => some .poleBB
  | 6 => some .poleCA
  | 7 => some .poleCB
  | 8 => some .allA
  | 9 => some .anyB
  | 10 => some .spring
  | 11 => some .stateBit
  | 12 => some .runActive
  | _ => none

def RunMode.ofCode : Nat → Option RunMode
  | 0 => some .single
  | 1 => some .repeated
  | 2 => some .triggered
  | _ => none

def RunTrigger.ofCode : Nat → Option RunTrigger
  | 0 => some .immediate
  | 1 => some .go
  | 2 => some .sync
  | 3 => some .atSecond
  | _ => none

def OverloadAction.ofCode : Nat → Option OverloadAction
  | 0 => some .abort
  | 1 => some .record
  | _ => none

def PhaseMode.ofCode : Nat → Option PhaseMode
  | 0 => some .set
  | 1 => some .keep
  | _ => none

def DcMode.ofCode : Nat → Option DcMode
  | 0 => some .continueDc
  | 1 => some .noDc
  | 2 => some .holdDc
  | _ => none

def BreakerEvent.ofCode : Nat → Option BreakerEvent
  | 0 => some (.poleOpen .a)
  | 1 => some (.poleOpen .b)
  | 2 => some (.poleOpen .c)
  | 3 => some .anyOpen
  | 4 => some .allOpen
  | 5 => some .allClosed
  | 6 => some .closeBlocked
  | 7 => some .closeRefused
  | 8 => some .discrepancyTrip
  | _ => none

def ItemKind.ofCode : Nat → Option ItemKind
  | 0 => some .expect
  | 1 => some .forbid
  | _ => none

/-- The counter source a code and a parameter name, or none where R142's checks 2 and 3 refuse. -/
def CounterSource.ofCode (code parameter : Nat) : Option CounterSource :=
  match code with
  | 0 => some .none
  | 1 => if 1 ≤ parameter ∧ parameter ≤ 12 then some (.edge (Fin.ofNat 13 parameter)) else .none
  | 2 => some .tripAccepted
  | 3 => some .closeAccepted
  | 4 => if parameter ≤ 23 then some (.entry (Fin.ofNat 24 parameter)) else .none
  | _ => .none

/-! ### Physical quantities and their clamps -/

/-- An amplitude or ramp target (R136). -/
def clampAmplitude (x : Half) : Nat := clampNat 0 32767 x.toNat

/-- An angle reduced modulo 36,000 (00_scope.md, Refused and clamped; R136). -/
def reduceAngle (x : Half) : Nat := x.toNat % 36000

/-- A channel frequency in mHz (R136): 0 kept, else 5,000..1,000,000. -/
def clampFrequency (x : Word) : Nat := if x.toNat = 0 then 0 else clampNat 5000 1000000 x.toNat

def clampRampTime (x : Half) : Nat := clampNat 0 60000 x.toNat

def clampGuard (x : Word) : Nat := clampNat 0 1000000 x.toNat

/-- AFTER t, lo, hi (R136). -/
def clampTime (x : Word) : Nat := clampNat 0 4000000000 x.toNat

/-- A discrepancy time (R93): 0 taken as given. -/
def clampDiscrepancy (x : Word) : Nat := if x.toNat = 0 then 0 else clampNat 50000 5000000 x.toNat

/-! ### The STWRITE body (R204): total readers, and the checks of R135 over the same bytes -/

def channelOffset (ch : Fin 8) : Nat := 3 + 14 * ch.val

def readChannel (body : List Byte) (ch : Fin 8) : ChannelPart :=
  let o := channelOffset ch
  { amplitude := clampAmplitude (halfAt body o)
    angle := reduceAngle (halfAt body (o + 2))
    frequency := clampFrequency (wordAt body (o + 4))
    rampTarget := clampAmplitude (halfAt body (o + 8))
    rampTime := clampRampTime (halfAt body (o + 10))
    phaseMode := (PhaseMode.ofCode (byteAt body (o + 12)).toNat).getD .set
    dcMode := (DcMode.ofCode (byteAt body (o + 13)).toNat).getD .continueDc }

/-- A field of the channel part was brought into range (R136). -/
def channelClamped (body : List Byte) (ch : Fin 8) : Bool :=
  let o := channelOffset ch
  let p := readChannel body ch
  p.amplitude ≠ (halfAt body o).toNat || p.angle ≠ (halfAt body (o + 2)).toNat ||
    p.frequency ≠ (wordAt body (o + 4)).toNat || p.rampTarget ≠ (halfAt body (o + 8)).toNat ||
    p.rampTime ≠ (halfAt body (o + 10)).toNat

def channelCodesOk (body : List Byte) (ch : Fin 8) : Bool :=
  let o := channelOffset ch
  (PhaseMode.ofCode (byteAt body (o + 12)).toNat).isSome &&
    (DcMode.ofCode (byteAt body (o + 13)).toNat).isSome

def exitCount (body : List Byte) : Nat := (byteAt body 1).toNat

def itemCount (body : List Byte) : Nat := (byteAt body 2).toNat

def exitOffset (n : Nat) : Nat := 133 + 8 * n

def itemOffset (body : List Byte) (n : Nat) : Nat := 133 + 8 * exitCount body + 12 * n

/-- The trigger of an exit (R204: code at offset 0, parameter at 1..4). -/
def readTrigger (body : List Byte) (o : Nat) : Trigger :=
  let p0 := (byteAt body (o + 1)).toNat
  match (byteAt body o).toNat with
  | 0 => .after (clampTime (wordAt body (o + 1)))
  | 1 => .edge (Fin.ofNat 13 p0) ((directionOfCode (byteAt body (o + 2)).toNat).getD .inactive)
  | 2 => .sync
  | 3 => .go
  | 4 => .breaker ((BreakerEvent.ofCode p0).getD .anyOpen)
  | 5 => .count (Fin.ofNat 4 p0)
  | _ => .mark (Fin.ofNat 16 p0)

def readTarget (b : Byte) : Target := if b.toNat = 255 then .finish else .state (Fin.ofNat 24 b.toNat)

def readAction (code mark : Byte) : Option MarkAction :=
  match code.toNat with
  | 1 => some (.set (Fin.ofNat 16 mark.toNat))
  | 2 => some (.clear (Fin.ofNat 16 mark.toNat))
  | _ => none

def readExit (body : List Byte) (n : Nat) : Exit :=
  let o := exitOffset n
  { trigger := readTrigger body o
    target := readTarget (byteAt body (o + 5))
    action := readAction (byteAt body (o + 6)) (byteAt body (o + 7)) }

def exitClamped (body : List Byte) (n : Nat) : Bool :=
  match readTrigger body (exitOffset n) with
  | .after t => t ≠ (wordAt body (exitOffset n + 1)).toNat
  | _ => false

/-- Check 4 of R135 over one exit: the trigger kind, direction, breaker event and mark action. -/
def exitCodesOk (body : List Byte) (n : Nat) : Bool :=
  let o := exitOffset n
  let kind := (byteAt body o).toNat
  kind ≤ 6 && (kind ≠ 1 || (directionOfCode (byteAt body (o + 2)).toNat).isSome) &&
    (kind ≠ 4 || (BreakerEvent.ofCode (byteAt body (o + 1)).toNat).isSome) &&
    (byteAt body (o + 6)).toNat ≤ 2

/-- Check 5 of R135 over one exit: input, counter, mark, target and the mark of the action. -/
def exitRefsOk (body : List Byte) (n : Nat) : Bool :=
  let o := exitOffset n
  let kind := (byteAt body o).toNat
  let p0 := (byteAt body (o + 1)).toNat
  let target := (byteAt body (o + 5)).toNat
  (kind ≠ 1 || p0 ≤ 12) && (kind ≠ 5 || p0 ≤ 3) && (kind ≠ 6 || p0 ≤ 15) &&
    (target ≤ 23 || target = 255) &&
    ((byteAt body (o + 6)).toNat = 0 || (byteAt body (o + 7)).toNat ≤ 15)

def readSubject (body : List Byte) (o : Nat) : Subject :=
  match (byteAt body o).toNat with
  | 0 => .edge (Fin.ofNat 13 (byteAt body (o + 1)).toNat)
      ((directionOfCode (byteAt body (o + 2)).toNat).getD .inactive)
  | 1 => .anyOpen
  | _ => .allClosed

def readItem (body : List Byte) (n : Nat) : Item :=
  let o := itemOffset body n
  { subject := readSubject body o
    kind := (ItemKind.ofCode (byteAt body (o + 3)).toNat).getD .expect
    lo := clampTime (wordAt body (o + 4))
    hi := clampTime (wordAt body (o + 8)) }

def itemClamped (body : List Byte) (n : Nat) : Bool :=
  let o := itemOffset body n
  clampTime (wordAt body (o + 4)) ≠ (wordAt body (o + 4)).toNat ||
    clampTime (wordAt body (o + 8)) ≠ (wordAt body (o + 8)).toNat

def itemCodesOk (body : List Byte) (n : Nat) : Bool :=
  let o := itemOffset body n
  let subject := (byteAt body o).toNat
  subject ≤ 2 && (subject ≠ 0 || (directionOfCode (byteAt body (o + 2)).toNat).isSome) &&
    (ItemKind.ofCode (byteAt body (o + 3)).toNat).isSome

def itemRefsOk (body : List Byte) (n : Nat) : Bool :=
  let o := itemOffset body n
  (byteAt body o).toNat ≠ 0 || (byteAt body (o + 1)).toNat ≤ 12

/-- Check 6 of R135 over one item, as received. -/
def itemWindowOk (body : List Byte) (n : Nat) : Bool :=
  let o := itemOffset body n
  (wordAt body (o + 4)).toNat ≤ (wordAt body (o + 8)).toNat

def loadPresence (body : List Byte) (c : Fin 4) : Nat := (byteAt body (125 + 2 * c.val)).toNat

def readLoad (body : List Byte) (c : Fin 4) : Option Nat :=
  if loadPresence body c = 1 then some (byteAt body (126 + 2 * c.val)).toNat else none

/-- The entry of an STWRITE body, every quantity in range (R136). -/
def readEntry (body : List Byte) : Entry :=
  { channels := .ofFn (readChannel body)
    decay := (halfAt body 115).toNat
    guard := clampGuard (wordAt body 117)
    inception := if (byteAt body 121).toNat = 1 then some (reduceAngle (halfAt body 122)) else none
    pattern := byteAt body 124
    loads := .ofFn (readLoad body)
    exits := (List.range (exitCount body)).map (readExit body)
    items := (List.range (itemCount body)).map (readItem body) }

/-- A field of the entry was brought into range (R136). -/
def entryClamped (body : List Byte) : Bool :=
  (List.finRange 8).any (channelClamped body) ||
    clampGuard (wordAt body 117) ≠ (wordAt body 117).toNat ||
    ((byteAt body 121).toNat = 1 && reduceAngle (halfAt body 122) ≠ (halfAt body 122).toNat) ||
    (List.range (exitCount body)).any (exitClamped body) ||
    (List.range (itemCount body)).any (itemClamped body)

/-- Checks 1 to 6 of R135. -/
def entryChecksOk (body : List Byte) : Bool :=
  (byteAt body 0).toNat ≤ 23 && exitCount body ≤ 6 && itemCount body ≤ 4 &&
    body.length = 133 + 8 * exitCount body + 12 * itemCount body &&
    (List.finRange 8).all (channelCodesOk body) && (byteAt body 121).toNat ≤ 1 &&
    (List.finRange 4).all (fun c => loadPresence body c ≤ 1) &&
    (List.range (exitCount body)).all (exitCodesOk body) &&
    (List.range (itemCount body)).all (itemCodesOk body) &&
    (List.range (exitCount body)).all (exitRefsOk body) &&
    (List.range (itemCount body)).all (itemRefsOk body) &&
    (List.range (itemCount body)).all (itemWindowOk body)

/-! ### Request bodies (R203) -/

/-- The body lengths a request kind allows, least and greatest (R202); none for a byte that is no request kind. -/
def requestLengths : Nat → Option (Nat × Nat)
  | 0x01 => some (0, 0)
  | 0x02 => some (0, 0)
  | 0x03 => some (0, 0)
  | 0x10 => some (8, 8)
  | 0x11 => some (6, 6)
  | 0x12 => some (2, 2)
  | 0x13 => some (1, 1)
  | 0x14 => some (1, 1)
  | 0x15 => some (35, 35)
  | 0x16 => some (3, 3)
  | 0x20 => some (133, 229)
  | 0x21 => some (1, 1)
  | 0x22 => some (1, 1)
  | 0x23 => some (3, 3)
  | 0x30 => some (18, 18)
  | 0x31 => some (0, 0)
  | 0x32 => some (0, 0)
  | 0x38 => some (1, 1)
  | 0x39 => some (0, 0)
  | 0x3A => some (4, 4)
  | 0x3C => some (1, 1)
  | _ => none

/-- The fields of a request body, in the order of R203. -/
def readRequest (kind : Nat) (b : List Byte) : Request :=
  match kind with
  | 0x01 => .ident
  | 0x02 => .status
  | 0x03 => .reset
  | 0x10 => .chanset (byteAt b 0) (halfAt b 1) (halfAt b 3) (halfAt b 5) (byteAt b 7)
  | 0x11 => .inset (byteAt b 0) (byteAt b 1) (byteAt b 2) (byteAt b 3) (halfAt b 4)
  | 0x12 => .inject (byteAt b 0) (byteAt b 1)
  | 0x13 => .ampon (byteAt b 0)
  | 0x14 => .ampoff (byteAt b 0)
  | 0x15 => .brkset (wordAt b 0) (wordAt b 4) (wordAt b 8) (wordAt b 12) (wordAt b 16) (wordAt b 20)
      (wordAt b 24) (byteAt b 28) (halfAt b 29) (byteAt b 31) (byteAt b 32) (byteAt b 33) (byteAt b 34)
  | 0x16 => .outset (byteAt b 0) (byteAt b 1) (byteAt b 2)
  | 0x20 => .stwrite b
  | 0x21 => .stread (byteAt b 0)
  | 0x22 => .stclear (byteAt b 0)
  | 0x23 => .cntset (byteAt b 0) (byteAt b 1) (byteAt b 2)
  | 0x30 => .run (byteAt b 0) (halfAt b 1) (wordAt b 3) (byteAt b 7) (wordAt b 8) (byteAt b 12) (wordAt b 13)
      (byteAt b 17)
  | 0x31 => .halt
  | 0x32 => .go
  | 0x38 => .tcal (byteAt b 0)
  | 0x39 => .tcalx
  | 0x3A => .tsec (wordAt b 0)
  | 0x3C => .repread (byteAt b 0)
  | _ => .unknownKind (BitVec.ofNat 8 kind)

/-- The request of a good frame, with the control link's checks of R6. -/
def parseRequest (kind : Byte) (body : List Byte) : Request :=
  match requestLengths kind.toNat with
  | none => .unknownKind kind
  | some (least, greatest) =>
    if least ≤ body.length ∧ body.length ≤ greatest then readRequest kind.toNat body else .wrongLength kind

/-- The kind byte of a request (R203). -/
def Request.kind : Request → Byte
  | .ident => 0x01
  | .status => 0x02
  | .reset => 0x03
  | .chanset .. => 0x10
  | .inset .. => 0x11
  | .inject .. => 0x12
  | .ampon .. => 0x13
  | .ampoff .. => 0x14
  | .brkset .. => 0x15
  | .outset .. => 0x16
  | .stwrite .. => 0x20
  | .stread .. => 0x21
  | .stclear .. => 0x22
  | .cntset .. => 0x23
  | .run .. => 0x30
  | .halt => 0x31
  | .go => 0x32
  | .tcal .. => 0x38
  | .tcalx => 0x39
  | .tsec .. => 0x3A
  | .repread .. => 0x3C
  | .unknownKind kind => kind
  | .wrongLength kind => kind

end Sys2Proof.Machine
end

