-- ==== Sys2Proof/Machine/Flags.lean ====
section
/-! DEFINITION. Every flag the spec computes: auxiliary contacts and output values (R121, R123), the bit sets of
the snapshot (R203), the flags byte of an acknowledgment (R206), overload counting (R88), presence masks (R196),
logical levels and majorities (R34), breaker disagreement (R110) and the pole events of a change (R113). -/

namespace Sys2Proof.Machine

/-! ### Breaker -/

def Position.name : Position → PositionName
  | .closed => .closed
  | .tripping _ => .tripping
  | .arcing _ => .arcing
  | .opened => .opened
  | .closing _ => .closing

/-- The open class of R59 and R96: OPEN and CLOSING. -/
def Position.isOpenClass : Position → Bool
  | .opened => true
  | .closing _ => true
  | .closed => false
  | .tripping _ => false
  | .arcing _ => false

/-- The a-contact is closed (R123). The b-contact is its complement. -/
def Position.aContact : Position → Bool
  | .closed => true
  | .tripping _ => true
  | .arcing _ => false
  | .opened => false
  | .closing _ => false

def Spring.isCharged : Spring → Bool
  | .charged => true
  | .charging _ => false

/-- Some pole meets a test. -/
def PerPole.any {α : Type} (f : α → Bool) (x : PerPole α) : Bool := f x.a || f x.b || f x.c

def PerPole.every {α : Type} (f : α → Bool) (x : PerPole α) : Bool := f x.a && f x.b && f x.c

/-- The breaker is in disagreement (R110). -/
def disagreement (poles : PerPole Position) : Bool :=
  poles.any Position.isOpenClass && poles.any (fun p => !p.isOpenClass)

/-- The poles that a change made OPEN, in pole order. -/
def newlyOpen (before after : PerPole Position) : List Pole :=
  poleOrder.filter fun p => after.get p = .opened && before.get p ≠ .opened

/-- POLE_OPEN, ANY_OPEN and ALL_OPEN of one sample or command (R113), judged on the positions before and after
all its changes. ANY_OPEN: no pole but the newly open ones is OPEN (log 17). -/
def poleEvents (before after : PerPole Position) : List BreakerEvent :=
  let opened := newlyOpen before after
  opened.map .poleOpen ++
    (if opened ≠ [] ∧ before.every (fun p => p ≠ .opened) then [.anyOpen] else []) ++
    (if opened ≠ [] ∧ after.every (fun p => p = .opened) then [.allOpen] else [])

/-! ### Binary outputs (R121) -/

/-- The value a source gives. -/
def sourceValue (poles : PerPole Position) (spring : Spring) (pattern : BitVec 8) (running : Bool) (bit : Fin 8) :
    OutSource → Bool
  | .fixedOpen => false
  | .fixedClosed => true
  | .poleAA => poles.a.aContact
  | .poleAB => !poles.a.aContact
  | .poleBA => poles.b.aContact
  | .poleBB => !poles.b.aContact
  | .poleCA => poles.c.aContact
  | .poleCB => !poles.c.aContact
  | .allA => poles.every Position.aContact
  | .anyB => poles.any (fun p => !p.aContact)
  | .spring => spring.isCharged
  | .stateBit => pattern.getLsbD bit.val
  | .runActive => running

/-! ### Contact inputs (R34) -/

/-- A raw sample through the polarity. -/
def logicalLevel (polarity : Polarity) (raw : Bool) : Bool :=
  match polarity with
  | .activeClosed => raw
  | .activeOpen => !raw

/-- The value at least two of three take. -/
def majority (x y z : Bool) : Bool := (x && y) || (x && z) || (y && z)

/-- The present majority of an input. -/
def presentMajority (polarity : Polarity) (h : RawHistory) : Bool :=
  majority (logicalLevel polarity h.newest) (logicalLevel polarity h.middle) (logicalLevel polarity h.oldest)

def Direction.ofLevel (level : Bool) : Direction := if level then .active else .inactive

def RawHistory.push (h : RawHistory) (raw : Bool) : RawHistory := ⟨raw, h.newest, h.middle⟩

/-- One more, saturating at 255. -/
def bump255 (n : Nat) : Nat := min 255 (n + 1)

/-! ### Bit sets -/

/-- A bit set from a test on bit numbers below `n`. -/
def bitsOf (n : Nat) (f : Nat → Bool) : Nat :=
  match n with
  | 0 => 0
  | k + 1 => bitsOf k f + (if f k then 2 ^ k else 0)

/-! ### Acknowledgments (R206) and overload (R88) -/

/-- The overload flag of channel k (bits 0..3). -/
def overloadFlag (flags : Byte) (k : Fin 4) : Bool := flags.getLsbD k.val

/-- Bit 4. -/
def overTempFlag (flags : Byte) : Bool := flags.getLsbD 4

/-- The check value of an acknowledgment over its leading byte, number and flags. -/
def ackCheck (number flags : Byte) : Half := crc16 [0x5A, number, flags]

/-- A flag's effect on a channel's overload run count and episode: the new count, the new episode, and whether
the overload event is raised. -/
def countOverload (flag : Bool) (run : Nat) (episode : Bool) : Nat × Bool × Bool :=
  if flag then
    let run' := min 20 (run + 1)
    if run' = 20 ∧ episode = false then (run', true, true) else (run', episode, false)
  else (0, false, false)

/-! ### Presence masks (R196) -/

/-- One flag for each optional field of a record, in the order of R195. -/
def presenceFlags : RecordBody → List Bool
  | .runStart _ _ _ _ _ second _ => [second.isSome]
  | .stateEntry _ _ _ fromState exitIndex exitTime causeTime =>
    [fromState.isSome, exitIndex.isSome, exitTime.isSome, causeTime.isSome]
  | .inputEdge .. => []
  | .breaker _ _ duration => [duration.isSome]
  | .assess _ _ _ _ measured => [measured.isSome]
  | .clip _ _ yRaw => [yRaw.isSome]
  | .amp _ _ channel => [channel.isSome]
  | .time _ correction second => [correction.isSome, second.isSome]
  | .runEnd .. => []

/-- The presence mask byte: bit n is the n-th optional field. -/
def presenceMask (body : RecordBody) : Nat :=
  bitsOf 8 fun n => (presenceFlags body).getD n false

end Sys2Proof.Machine
end

