-- ==== Sys2Proof/Machine/Layout.lean ====
section
/-! DEFINITION. The byte layouts of what the part sends (R202 to R206): status and name codes, the snapshot, the
entry as STREAD returns it, records, answers, notices and their frames, and the sample frame. -/

namespace Sys2Proof.Machine

/-! ### Codes -/

def Status.code : Status → Nat
  | .ok => 0x00
  | .clamped => 0x01
  | .unknown => 0x10
  | .length => 0x11
  | .range => 0x12
  | .busy => 0x13
  | .active => 0x14
  | .notReady => 0x15
  | .noRoom => 0x16
  | .noTime => 0x17
  | .empty => 0x18
  | .order => 0x19
  | .overrun => 0x1A

def SeqState.code : SeqState → Nat
  | .idle => 0
  | .armed => 1
  | .running => 2
  | .pointing => 3
  | .gap => 4

def RunOutcome.code : RunOutcome → Nat
  | .complete => 0
  | .halted => 1
  | .ampFault => 2
  | .table => 3
  | .limit => 4

def PositionName.code : PositionName → Nat
  | .closed => 0
  | .tripping => 1
  | .arcing => 2
  | .opened => 3
  | .closing => 4

def TbState.code : TbState → Nat
  | .free => 0
  | .calibrating => 1
  | .locked => 2
  | .holdover => 3

def GroupState.code : GroupState → Nat
  | .off => 0
  | .settling => 1
  | .ready => 2
  | .fault => 3

def groupCode : Group → Nat
  | .v => 0
  | .i => 1

def Direction.code : Direction → Nat
  | .inactive => 0
  | .active => 1

def RunMode.code : RunMode → Nat
  | .single => 0
  | .repeated => 1
  | .triggered => 2

def RunTrigger.code : RunTrigger → Nat
  | .immediate => 0
  | .go => 1
  | .sync => 2
  | .atSecond => 3

def BreakerSubject.code : BreakerSubject → Nat
  | .pole .a => 0
  | .pole .b => 1
  | .pole .c => 2
  | .mechanism => 3

def BreakerRecord.code : BreakerRecord → Nat
  | .tripAccepted => 0
  | .contactsParted => 1
  | .interrupted => 2
  | .interruptedForced => 3
  | .tripFree => 4
  | .closed => 5
  | .resolved => 6
  | .closeAccepted => 7
  | .closeBlocked => 8
  | .closeRefused => 9
  | .allClosed => 10
  | .springCharged => 11
  | .discrepancyTrip => 12

def Decision.code : Decision → Nat
  | .early => 0
  | .pass => 1
  | .late => 2
  | .missing => 3
  | .fail => 4
  | .abandoned => 5

def AmpEvent.code : AmpEvent → Nat
  | .linkLost => 0
  | .overTemp => 1
  | .overload => 2

def TimeEvent.code : TimeEvent → Nat
  | .holdover => 0
  | .relocked => 1
  | .calDone => 2
  | .calRejected => 3
  | .calFailed => 4
  | .epochSet => 5

def BreakerEvent.code : BreakerEvent → Nat
  | .poleOpen .a => 0
  | .poleOpen .b => 1
  | .poleOpen .c => 2
  | .anyOpen => 3
  | .allOpen => 4
  | .allClosed => 5
  | .closeBlocked => 6
  | .closeRefused => 7
  | .discrepancyTrip => 8

def OutSource.code : OutSource → Nat
  | .fixedOpen => 0
  | .fixedClosed => 1
  | .poleAA => 2
  | .poleAB => 3
  | .poleBA => 4
  | .poleBB => 5
  | .poleCA => 6
  | .poleCB => 7
  | .allA => 8
  | .anyB => 9
  | .spring => 10
  | .stateBit => 11
  | .runActive => 12

def PhaseMode.code : PhaseMode → Nat
  | .set => 0
  | .keep => 1

def DcMode.code : DcMode → Nat
  | .continueDc => 0
  | .noDc => 1
  | .holdDc => 2

def ItemKind.code : ItemKind → Nat
  | .expect => 0
  | .forbid => 1

def NoticeCause.code : NoticeCause → Nat
  | .runEnd => 1
  | .chainEnd => 2
  | .ampFault => 3
  | .timebase => 4
  | .fill => 5

def IeMode.code : IeMode → Nat
  | .independent => 0
  | .residual => 1

def VoltageSide.code : VoltageSide → Nat
  | .bus => 0
  | .line => 1

def boolCode (b : Bool) : Nat := if b then 1 else 0

/-- A counter source's code and parameter (R203). -/
def CounterSource.code : CounterSource → Nat × Nat
  | .none => (0, 0)
  | .edge input => (1, input.val)
  | .tripAccepted => (2, 0)
  | .closeAccepted => (3, 0)
  | .entry n => (4, n.val)

/-- One byte. -/
def byteOf (n : Nat) : List Byte := [BitVec.ofNat 8 n]

/-- An optional field: no bytes when absent. -/
def optBytes {α : Type} (f : α → List Byte) : Option α → List Byte
  | none => []
  | some x => f x

/-- The snapshot's code of an optional state index: FFh when absent. -/
def stateIndexCode : Option (Fin 24) → Nat
  | none => 255
  | some n => n.val

/-! ### Snapshot (R203) -/

def Snapshot.bytes (x : Snapshot) : List Byte :=
  byteOf x.seqState.code ++ leBytes 2 x.runNumber ++ byteOf (stateIndexCode x.current) ++
    byteOf (stateIndexCode x.pendingTarget) ++
    byteOf (match x.lastOutcome with | none => 0 | some o => o.code + 1) ++
    byteOf x.poles.a.code ++ byteOf x.poles.b.code ++ byteOf x.poles.c.code ++
    byteOf (boolCode (!x.springCharged)) ++ leBytes 2 x.marks.toNat ++
    x.counters.toList.map (BitVec.ofNat 8) ++ leBytes 2 x.levels.toNat ++ [x.outputs] ++
    byteOf x.tbState.code ++ leSigned 4 x.correction ++
    byteOf (boolCode x.pendingCorrection.isSome + 2 * boolCode x.epoch) ++
    leSigned 4 (x.pendingCorrection.getD 0) ++ leBytes 4 x.second ++
    byteOf x.groups.v.code ++ byteOf x.groups.i.code ++ leBytes 2 x.fill

/-! ### State entry (R204) -/

def ChannelPart.bytes (p : ChannelPart) : List Byte :=
  leBytes 2 p.amplitude ++ leBytes 2 p.angle ++ leBytes 4 p.frequency ++ leBytes 2 p.rampTarget ++
    leBytes 2 p.rampTime ++ byteOf p.phaseMode.code ++ byteOf p.dcMode.code

/-- Trigger code and the four parameter bytes; unused bytes are 0. -/
def Trigger.bytes : Trigger → List Byte
  | .after t => byteOf 0 ++ leBytes 4 t
  | .edge input direction => byteOf 1 ++ byteOf input.val ++ byteOf direction.code ++ [0, 0]
  | .sync => byteOf 2 ++ [0, 0, 0, 0]
  | .go => byteOf 3 ++ [0, 0, 0, 0]
  | .breaker event => byteOf 4 ++ byteOf event.code ++ [0, 0, 0]
  | .count counter => byteOf 5 ++ byteOf counter.val ++ [0, 0, 0]
  | .mark m => byteOf 6 ++ byteOf m.val ++ [0, 0, 0]

def Exit.bytes (x : Exit) : List Byte :=
  x.trigger.bytes ++
    (match x.target with | .state n => byteOf n.val | .finish => byteOf 255) ++
    (match x.action with
      | none => [0, 0]
      | some (.set m) => byteOf 1 ++ byteOf m.val
      | some (.clear m) => byteOf 2 ++ byteOf m.val)

def Item.bytes (x : Item) : List Byte :=
  (match x.subject with
    | .edge input direction => byteOf 0 ++ byteOf input.val ++ byteOf direction.code
    | .anyOpen => [1, 0, 0]
    | .allClosed => [2, 0, 0]) ++
    byteOf x.kind.code ++ leBytes 4 x.lo ++ leBytes 4 x.hi

/-- A present value with its presence byte, or two zero bytes. -/
def loadBytes : Option Nat → List Byte
  | none => [0, 0]
  | some v => byteOf 1 ++ byteOf v

/-- The STWRITE body of an entry as STREAD returns it. -/
def Entry.bytes (index : Byte) (e : Entry) : List Byte :=
  [index] ++ byteOf e.exits.length ++ byteOf e.items.length ++
    (e.channels.toList.map ChannelPart.bytes).flatten ++ leBytes 2 e.decay ++ leBytes 4 e.guard ++
    (match e.inception with | none => [0, 0, 0] | some a => byteOf 1 ++ leBytes 2 a) ++
    [e.pattern] ++ (e.loads.toList.map loadBytes).flatten ++
    (e.exits.map Exit.bytes).flatten ++ (e.items.map Item.bytes).flatten

/-! ### Records (R205) -/

def RecordBody.kindCode : RecordBody → Nat
  | .runStart .. => 1
  | .stateEntry .. => 2
  | .inputEdge .. => 3
  | .breaker .. => 4
  | .assess .. => 5
  | .clip .. => 6
  | .amp .. => 7
  | .time .. => 8
  | .runEnd .. => 9

def RecordBody.bytes : RecordBody → List Byte
  | .runStart mode trigger first frequency cRun second holdover =>
    byteOf mode.code ++ byteOf trigger.code ++ byteOf first.val ++ leBytes 4 frequency ++ leSigned 4 cRun ++
      optBytes (leBytes 4) second ++ byteOf (boolCode holdover)
  | .stateEntry state visit entryTime fromState exitIndex exitTime causeTime =>
    byteOf state.val ++ leBytes 2 visit ++ leBytes 4 entryTime ++ optBytes (fun n => byteOf n.val) fromState ++
      optBytes (fun n => byteOf n.val) exitIndex ++ optBytes (leBytes 4) exitTime ++
      optBytes (leBytes 4) causeTime
  | .inputEdge input direction edgeTime noise glitches bounces injected =>
    byteOf input.val ++ byteOf direction.code ++ leBytes 4 edgeTime ++ byteOf (boolCode noise) ++
      byteOf glitches ++ byteOf bounces ++ byteOf (boolCode injected)
  | .breaker subject event duration =>
    byteOf subject.code ++ byteOf event.code ++ optBytes (leBytes 4) duration
  | .assess state visit item outcome measured =>
    byteOf state.val ++ leBytes 2 visit ++ byteOf item ++ byteOf outcome.code ++ optBytes (leSigned 8) measured
  | .clip channel start yRaw =>
    byteOf channel.val ++ byteOf (boolCode (!start)) ++ optBytes (leSigned 4) yRaw
  | .amp group event channel =>
    byteOf (groupCode group) ++ byteOf event.code ++ optBytes (fun n => byteOf n.val) channel
  | .time event correction second =>
    byteOf event.code ++ optBytes (leSigned 4) correction ++ optBytes (leBytes 4) second
  | .runEnd outcome runTime visited pass nonPass lost =>
    byteOf outcome.code ++ leBytes 4 runTime ++ leBytes 4 visited ++ leBytes 4 pass ++ leBytes 4 nonPass ++
      leBytes 4 lost

/-- A record with its 13-byte head. -/
def Record.bytes (r : Record) : List Byte :=
  byteOf (13 + r.body.bytes.length) ++ leBytes 4 r.seq ++ byteOf r.body.kindCode ++ leBytes 2 r.run ++
    leBytes 4 r.time ++ byteOf (presenceMask r.body) ++ r.body.bytes

/-! ### Frames (R1, R202) -/

/-- What the check value covers: body length, kind, tag and body. -/
def frameCovered (kind tag : Byte) (body : List Byte) : List Byte :=
  leBytes 2 body.length ++ [kind, tag] ++ body

/-- A whole frame on the control link. -/
def frameBytes (kind tag : Byte) (body : List Byte) : List Byte :=
  [0xD1, 0x2E] ++ frameCovered kind tag body ++ crcBytes (crc16 (frameCovered kind tag body))

/-- The answer's kind byte: the request's with its most significant bit set. -/
def Answer.kind (a : Answer) : Byte := a.requestKind ||| 0x80#8

/-- The answer's body: the status, then the kind's answer body. -/
def Answer.body (a : Answer) : List Byte := byteOf a.status.code ++ a.payload

/-- A notice's body: the cause, then the snapshot. -/
def Notice.body (n : Notice) : List Byte := byteOf n.cause.code ++ n.snapshot.bytes

/-- The bytes of a frame the part sends. -/
def OutFrame.bytes : OutFrame → List Byte
  | .answer a => frameBytes a.kind a.tag a.body
  | .notice n => frameBytes 0x40 0 n.body

/-- The length of a frame on the line: L + 8 bytes (R202). -/
def OutFrame.byteCount : OutFrame → Nat
  | .answer a => 9 + a.payload.length
  | .notice _ => 46

/-- The 12 bytes of a sample frame (R206). -/
def SampleFrame.bytes (f : SampleFrame) : List Byte :=
  let covered := [0xA5, f.number] ++ (f.codes.toList.map (leSigned 2)).flatten
  covered ++ crcBytes (crc16 covered)

end Sys2Proof.Machine
end

