-- ==== Sys2Proof/Machine/Ops.lean ====
section
/-! DEFINITION. The operations every block shares: run times and the run in progress, the snapshot and notices
(R9, R12), the offer of a record (R188 to R193, R200), the refresh of the outputs (R124), the transmit arbiter
(R10), and `act`, which every command's meaning goes through. -/

namespace Sys2Proof.Machine

/-! ### Time and the run in progress -/

/-- A run is in progress (R145). -/
def State.inRun (s : State) : Bool := s.sq.state = .running || s.sq.state = .pointing

/-- The run time of an oscillator count (R31); 0 outside a run. -/
def State.runTimeAt (s : State) (count : Nat) : Nat :=
  match s.tb.latch with
  | some l => runTime l.t0 l.cRun count
  | none => 0

/-- The run time of the present count. -/
def State.now (s : State) : Nat := s.runTimeAt s.count

/-! ### Snapshot and notices -/

/-- The number of stored records (R187). -/
def State.fill (s : State) : Nat := s.rs.records.length

/-- 640 less the store fill (R146). -/
def State.freePlaces (s : State) : Nat := 640 - s.fill

/-- The settled level of input n: 0 is SYNC IN. -/
def settledLevel (ci : ContactInputs) (n : Nat) : Bool :=
  if n = 0 then ci.sync.settled
  else match ci.inputs.toList[n - 1]? with
    | some x => x.settled
    | none => false

/-- The pending target: shown in POINTING (R12). -/
def Sequencer.pendingTarget (q : Sequencer) : Option (Fin 24) :=
  match q.state, q.taken with
  | .pointing, some x => match x.target with | .state n => some n | .finish => none
  | _, _ => none

/-- The snapshot of R12 at this instant. -/
def State.snapshot (s : State) : Snapshot :=
  { seqState := s.sq.state
    runNumber := s.sq.runNumber
    current := if s.inRun then s.sq.current else none
    pendingTarget := s.sq.pendingTarget
    lastOutcome := s.sq.lastOutcome
    poles := s.bs.poles.map Position.name
    springCharged := s.bs.spring.isCharged
    marks := s.sq.marks
    counters := s.sq.counters
    levels := BitVec.ofNat 16 (bitsOf 13 (settledLevel s.ci))
    outputs := BitVec.ofNat 8 (bitsOf 8 fun n => s.bo.outputs.toList.getD n false)
    tbState := s.tb.state
    correction := s.tb.c
    pendingCorrection := s.tb.pendingC
    second := s.tb.second
    epoch := s.tb.epoch
    groups := ⟨s.al.v.state, s.al.i.state⟩
    fill := s.fill }

/-- R9: a raised notice takes the notice place; an older one there is discarded. Of two notices raised in one step the
first is always still there: the model's choice (log 40). -/
def raiseNotice (cause : NoticeCause) (s : State) : State :=
  { s with cl := { s.cl with notice := some ⟨cause, s.snapshot⟩ } }

/-! ### Report store -/

/-- The greatest sequence number (R189). -/
def topNumber : Nat := 4294967295

/-- R189: the number wrap at the offer after number 4,294,967,295. -/
def wrapNumbers (rs : ReportStore) : ReportStore :=
  if rs.nextSeq ≤ topNumber then rs
  else
    { records := []
      nextSeq := 1
      window := rs.window.map fun w =>
        { w with lost := min topNumber (w.lost + (rs.records.filter (fun r => r.run = w.run)).length) }
      fillArmed := true }

/-- R191: the offer of a RUN_START opens the run window. -/
def openWindow (body : RecordBody) (run : Nat) (window : Option RunWindow) : Option RunWindow :=
  match body with
  | .runStart .. => some ⟨run, 0⟩
  | _ => window

/-- R191: the RUN_END closes the window once admitted. -/
def closeWindow (body : RecordBody) (window : Option RunWindow) : Option RunWindow :=
  match body with
  | .runEnd .. => none
  | _ => window

/-- R192: admission by kind, run window and fill before the offer. -/
def admits (body : RecordBody) (windowOpen : Bool) (fill : Nat) : Bool :=
  match body with
  | .runEnd .. => true
  | _ => if windowOpen then fill ≤ 638 else fill ≤ 639

/-- R193: a lost record is counted in an open window. -/
def countLost (window : Option RunWindow) : Option RunWindow :=
  window.map fun w => { w with lost := min topNumber (w.lost + 1) }

/-- The store after one offer (R188 to R193), before the fill notice is judged. -/
def ReportStore.offer (run time : Nat) (body : RecordBody) (rs0 : ReportStore) : ReportStore :=
  let rs := wrapNumbers rs0
  let window := openWindow body run rs.window
  if admits body window.isSome rs.records.length then
    { rs with
      records := rs.records ++ [⟨rs.nextSeq, run, time, body⟩]
      nextSeq := rs.nextSeq + 1
      window := closeWindow body window }
  else { rs with nextSeq := rs.nextSeq + 1, window := countLost window }

/-- R200: an admission that brought the fill to 480 raises the FILL notice while armed. `grew` says that the
offer was admitted. -/
def judgeFill (grew : Bool) (s : State) : State :=
  if grew ∧ s.fill = 480 ∧ s.rs.fillArmed then
    let s := { s with rs := { s.rs with fillArmed := false } }
    raiseNotice .fill s
  else s

/-- A record offered to the store with its head's run number and time. -/
def offer (run time : Nat) (body : RecordBody) (s : State) : State :=
  let rs := s.rs.offer run time body
  judgeFill (rs.records.length = (wrapNumbers s.rs).records.length + 1) { s with rs := rs }

/-- A record of the run in progress at a run time. -/
def offerRun (time : Nat) (body : RecordBody) (s : State) : State := offer s.sq.runNumber time body s

/-- A record of the time base or the amplifier link at an oscillator count (R32, R91): the run's number and run
time while a run is in progress, else 0 and 0. -/
def offerAt (count : Nat) (body : RecordBody) (s : State) : State :=
  if s.inRun then offer s.sq.runNumber (s.runTimeAt count) body s else offer 0 0 body s

/-- The sequence number a REPREAD answer shows (R198; log 19). -/
def shownNextSeq (rs : ReportStore) : Word :=
  if rs.nextSeq ≤ topNumber then BitVec.ofNat 32 rs.nextSeq else Config.nextSeqAtTop

/-- R198 and R200: the m oldest records leave the store, and the fill notice is judged. -/
def ReportStore.takeOldest (m : Nat) (rs : ReportStore) : ReportStore :=
  { rs with
    records := rs.records.drop m
    fillArmed := if rs.records.length - m < 320 then true else rs.fillArmed }

/-! ### Outputs and the outgoing line -/

/-- R121, R124: every output takes the value its source gives. -/
def refreshOutputs (running : Bool) (s : State) : State :=
  { s with bo := { s.bo with
      outputs := .ofFn fun k => sourceValue s.bs.poles s.bs.spring s.bo.pattern running s.bo.bits[k] s.bo.sources[k] } }

/-- R10: the line, if free, takes the oldest answer, else the waiting notice. -/
def arbitrate (s : State) : State :=
  match s.cl.line with
  | some _ => s
  | none =>
    match s.cl.answers, s.cl.notice with
    | a :: rest, _ => { s with cl := { s.cl with answers := rest, line := some ⟨.answer a, s.count⟩ } }
    | [], some n => { s with cl := { s.cl with notice := none, line := some ⟨.notice n, s.count⟩ } }
    | [], none => s

/-- The end of every step: the outputs stand as their sources give, and the arbiter has made its choice (log 7). The
arbiter chooses once, after all of the step's notices: where the line is free and a step raises two (AMP_FAULT then
RUN_END or CHAIN_END, R87; FILL then RUN_END), the first is replaced unsent. That is the model's choice (log 40). -/
def settle (s : State) : State := arbitrate (refreshOutputs s.inRun s)

/-- The meaning of a command whose effect is `f`: nothing acts while the RESET line is asserted (R14, R33, R51,
R79, R92, R120, R129, R144, R171, R186, R201). -/
def act (f : State → State) (s : State) : Host.Outcome State Fault Refusal :=
  if s.resetLine then .next s else .next (settle (f s))

/-- A named event: its effect where the event is due, else nothing (log 4). -/
def whenDue (due : Bool) (f : State → State) (s : State) : State := if due then f s else s

end Sys2Proof.Machine
end

