-- ==== Sys2Proof/Machine/Assess.lean ====
section
/-! DEFINITION. The assessment unit (10_assessment.md): opening a visit's items, deciding them on events, at a
visit's end and at a run's end, the tallies and the ASSESS records. -/

namespace Sys2Proof.Machine

/-- R172: the visit of a state just entered, its items OPEN. -/
def openVisit (n : Fin 24) (count entryTime : Nat) (items : List Item) (s : State) : State :=
  { s with asmt := { s.asmt with
      visit := some ⟨n, count, entryTime, items.map fun x => ⟨x, none, none⟩⟩ } }

/-- R184: a decision increments one tally. -/
def Assessment.tally (d : Decision) (a : Assessment) : Assessment :=
  match d with
  | .pass => { a with pass := a.pass + 1 }
  | _ => { a with nonPass := a.nonPass + 1 }

/-- R176 to R182: item `k` of the visit takes its decision and measured time, one tally moves, and one ASSESS
record is offered with head time `head`. -/
def decideItem (k : Nat) (x : ItemRun) (d : Decision) (measured : Option Int) (head : Nat) (s : State) : State :=
  match s.asmt.visit with
  | none => s
  | some v =>
    let items := v.items.set k { x with decision := some d, measured := measured }
    let s := { s with asmt := ({ s.asmt with visit := some { v with items := items } }).tally d }
    offerRun head (.assess v.state v.count k d measured) s

/-- R176, R177: the decision of an OPEN item on a matching event with measured time t, if it is one. -/
def eventDecision (x : Item) (t : Int) : Option Decision :=
  match x.kind with
  | .expect => if t < x.lo then some .early else if t ≤ x.hi then some .pass else some .late
  | .forbid => if (x.lo : Int) ≤ t ∧ t ≤ x.hi then some .fail else none

/-- One item of the visit against an event. -/
def judgeItem (subject : Subject) (eventTime head : Nat) (s : State) (k : Nat) : State :=
  match s.asmt.visit with
  | none => s
  | some v =>
    match v.items[k]? with
    | none => s
    | some x =>
      if x.decision = none ∧ x.item.subject = subject then
        let t : Int := (eventTime : Int) - (v.entryTime : Int)
        match eventDecision x.item t with
        | some d => decideItem k x d (some t) head s
        | none => s
      else s

/-- R173, R178: an event judged against the OPEN items of the visit, in the order of the item index. -/
def assessEvent (subject : Subject) (eventTime head : Nat) (s : State) : State :=
  (List.range 4).foldl (judgeItem subject eventTime head) s

/-- R179, R180: the decision of an item still OPEN at the end of its visit; `abandon` after HALTED, AMPFAULT and
LIMIT. -/
def endDecision (abandon : Bool) (kind : ItemKind) : Decision :=
  if abandon then .abandoned
  else match kind with
    | .expect => .missing
    | .forbid => .pass

def endItem (abandon : Bool) (head : Nat) (s : State) (k : Nat) : State :=
  match s.asmt.visit with
  | none => s
  | some v =>
    match v.items[k]? with
    | none => s
    | some x =>
      if x.decision = none then decideItem k x (endDecision abandon x.item.kind) none head s else s

/-- R179, R180: the visit under way ends; every item still OPEN is decided, in item order, and the visit becomes
absent. -/
def endVisit (abandon : Bool) (head : Nat) (s : State) : State :=
  let s := (List.range 4).foldl (endItem abandon head) s
  { s with asmt := { s.asmt with visit := none } }

/-- The breaker events the assessment unit receives (R173). -/
def BreakerEvent.subject : BreakerEvent → Option Subject
  | .anyOpen => some .anyOpen
  | .allClosed => some .allClosed
  | .poleOpen _ => none
  | .allOpen => none
  | .closeBlocked => none
  | .closeRefused => none
  | .discrepancyTrip => none

/-- R178: the breaker events of one sample or command, judged in the order handed. -/
def assessBreakerEvents (events : List BreakerEvent) (eventTime head : Nat) (s : State) : State :=
  events.foldl (fun s e => match e.subject with | some x => assessEvent x eventTime head s | none => s) s

end Sys2Proof.Machine
end

