-- ==== Sys2Proof/Machine/Synthesis.lean ====
section
/-! DEFINITION. Waveform synthesis (04_waveform_synthesis.md): loading a state entry (R62 to R66), the values of
one sample (R68 to R74), clip episodes (R77, R78), the advance (R76) and clearing (R57). The interruption of a
pole (R70) is the breaker simulator's, in Machine/BreakerOps.lean. -/

namespace Sys2Proof.Machine

/-! ### Loading (R62) -/

/-- Ramp step and ramp target at entry (R64). -/
def loadRamp (amplitude target rampTime : Nat) : Int × Nat :=
  let n := 20 * rampTime
  let difference : Int := (target : Int) - (amplitude : Int)
  if n = 0 ∨ target = amplitude then (0, amplitude)
  else
    let step := roundDiv (difference * 65536) n
    if step = 0 then (if 0 < difference then 1 else -1, target) else (step, target)

/-- θ at entry by the phase mode (R63). -/
def loadPhase (r : Word) (p : ChannelPart) (kept : Word) : Word :=
  match p.phaseMode with
  | .set => if p.frequency = 0 then anglePhase p.angle else r + anglePhase p.angle
  | .keep => kept

/-- D at entry by the DC mode (R65), apart from an open pole, which `dropOpenDc` treats with the positions of the
entry sample. A CONTINUE entry at the very sample at which the channel's pole closes takes R65's D, (0 - ac0) × 65,536,
where R71 and R108 let the channel return with D = 0: the model's choice (log 41). -/
def loadDc (ch : Fin 8) (p : ChannelPart) (ac0 sPrev kept : Int) : Int :=
  if isCurrent ch then
    match p.dcMode with
    | .continueDc => (sPrev - ac0) * 65536
    | .noDc => 0
    | .holdDc => kept
  else 0

/-- IE in RESIDUAL mode (R52). -/
def isResidual (ieMode : IeMode) (ch : Fin 8) : Bool := ieMode = .residual && ch = 7

/-- One live record loaded from its channel part (R62 to R66). -/
def loadRecord (ieMode : IeMode) (cRun : Int) (r : Word) (ch : Fin 8) (p : ChannelPart) (x : LiveRecord) :
    LiveRecord :=
  if isResidual ieMode ch then { LiveRecord.cleared with sPrev := x.sPrev, clip := x.clip }
  else
    let theta := loadPhase r p x.theta
    let ramp := loadRamp p.amplitude p.rampTarget p.rampTime
    { theta := theta
      dTheta := increment p.frequency cRun
      aFix := (p.amplitude : Int) * 65536
      rampStep := ramp.1
      rampTarget := ramp.2
      d := loadDc ch p (sineCode p.amplitude theta) x.sPrev x.d
      sPrev := x.sPrev
      clip := x.clip }

/-- c_run of the run in progress (R30). -/
def State.cRun (s : State) : Int :=
  match s.tb.latch with
  | some l => l.cRun
  | none => 0

/-- R62: all live records are loaded from an entry, and its decay factor comes into force. -/
def loadEntry (e : Entry) (s : State) : State :=
  { s with ws := { s.ws with
      live := .ofFn fun ch => loadRecord s.ws.ieMode s.cRun s.ws.r ch e.channels[ch] s.ws.live[ch]
      decay := e.decay } }

/-- The pole of a channel is OPEN or CLOSING (R59). -/
def channelOpen (poles : PerPole Position) (ch : Fin 8) : Bool :=
  match poleOf ch with
  | some p => (poles.get p).isOpenClass
  | none => false

/-- R65: at an entry sample, D becomes 0 on a current channel whose pole is OPEN or CLOSING there. -/
def dropOpenDc (s : State) : State :=
  { s with ws := { s.ws with
      live := .ofFn fun ch =>
        let x := s.ws.live[ch]
        if isCurrent ch && channelOpen s.bs.poles ch then { x with d := 0 } else x } }

/-! ### One sample -/

/-- The channel's sum (R69), limited to the pre-calibration range on a current channel, and whether it was
limited. -/
def channelSum (ch : Fin 8) (x : LiveRecord) : Int × Bool :=
  let ac := sineCode (x.aFix / 65536).toNat x.theta
  if isCurrent ch then
    let sum := ac + truncDiv x.d 65536
    if 32767 < sum then (32767, true) else if sum < -32767 then (-32767, true) else (sum, false)
  else (ac, false)

/-- R103: the candidate is 0, or it and s_prev are both nonzero and of opposite sign. -/
def crossesZero (candidate sPrev : Int) : Bool := candidate = 0 || candidate * sPrev < 0

/-- The pre-calibration value of a channel of its own record, after the open-pole substitutions (R71, R72). -/
def ownValue (bs : Breaker) (ch : Fin 8) (x : LiveRecord) : Int :=
  if channelOpen bs.poles ch then
    if isCurrent ch then 0
    else match bs.settings.side with
      | .line => sineCode bs.settings.openAmp x.theta
      | .bus => (channelSum ch x).1
  else (channelSum ch x).1

/-- s of each channel at a sample, the residual included (R69 to R73). -/
def sampleValue (s : State) (ch : Fin 8) : Int :=
  let own (k : Fin 8) : Int := ownValue s.bs k s.ws.live[k]
  if isResidual s.ws.ieMode ch then own 4 + own 5 + own 6 else own ch

/-- y_raw (R74). -/
def rawCode (x : ChannelSettings) (value : Int) : Int := roundDiv (value * x.gain) 32768 + x.offset

/-- y (R74). -/
def limitedCode (x : ChannelSettings) (yRaw : Int) : Int := clampInt (-(x.limit : Int)) x.limit yRaw

/-- The eight codes of the sample. -/
def sampleCodes (s : State) : Vector Int 8 :=
  .ofFn fun ch => limitedCode s.ws.settings[ch] (rawCode s.ws.settings[ch] (sampleValue s ch))

/-- The channel is clipped at this sample (R74). -/
def isClipped (s : State) (ch : Fin 8) : Bool :=
  let yRaw := rawCode s.ws.settings[ch] (sampleValue s ch)
  limitedCode s.ws.settings[ch] yRaw ≠ yRaw || (channelSum ch s.ws.live[ch]).2

/-- A channel's clip flag set or cleared. -/
def putClip (ch : Fin 8) (flag : Bool) (s : State) : State :=
  { s with ws := { s.ws with live := s.ws.live.set ch { s.ws.live[ch] with clip := flag } } }

/-- R77: the clip episode of one channel at a sample of run time t. -/
def clipEpisode (t : Nat) (s : State) (ch : Fin 8) : State :=
  let yRaw := rawCode s.ws.settings[ch] (sampleValue s ch)
  let outside := limitedCode s.ws.settings[ch] yRaw ≠ yRaw
  if isClipped s ch ∧ s.ws.live[ch].clip = false then
    offerRun t (.clip ch true (if outside then some yRaw else none)) (putClip ch true s)
  else if isClipped s ch = false ∧ s.ws.live[ch].clip then
    offerRun t (.clip ch false none) (putClip ch false s)
  else s

/-- R77 over the eight channels, in channel order (log 26). -/
def clipEpisodes (t : Nat) (s : State) : State := (List.finRange 8).foldl (clipEpisode t) s

/-- Afix and ramp step after an advance (R76). -/
def advanceRamp (aFix step : Int) (target : Nat) : Int × Int :=
  let next := aFix + step
  let goal : Int := (target : Int) * 65536
  if (0 < step ∧ goal ≤ next) ∨ (step < 0 ∧ next ≤ goal) then (goal, 0) else (next, step)

/-- A live record after its advance (R76), D being 0 already on an open pole (R71). -/
def advanceRecord (decay : Nat) (isOpen : Bool) (ch : Fin 8) (value : Int) (x : LiveRecord) : LiveRecord :=
  let ramp := advanceRamp x.aFix x.rampStep x.rampTarget
  let d : Int := if isCurrent ch && !isOpen then x.d else 0
  { x with
    theta := x.theta + x.dTheta
    aFix := ramp.1
    rampStep := ramp.2
    d := truncDiv (d * decay) 65536
    sPrev := value }

/-- R76, R58: every record and R advance. -/
def advanceAll (s : State) : State :=
  { s with ws := { s.ws with
      live := .ofFn fun ch =>
        advanceRecord s.ws.decay (channelOpen s.bs.poles ch) ch (sampleValue s ch) s.ws.live[ch]
      r := s.ws.r + s.ws.dRef } }

/-! ### Run boundaries -/

/-- R57, R58: every live record, R, the increment and the decay factor are cleared. -/
def clearSynthesis (s : State) : State :=
  { s with ws := { s.ws with live := .replicate 8 .cleared, decay := 0, r := 0, dRef := 0 } }

/-- R78: at a run end each clip episode is closed, in channel order. -/
def closeClip (t : Nat) (s : State) (ch : Fin 8) : State :=
  if s.ws.live[ch].clip then offerRun t (.clip ch false none) (putClip ch false s) else s

def closeClips (t : Nat) (s : State) : State := (List.finRange 8).foldl (closeClip t) s

end Sys2Proof.Machine
end

