-- ==== Sys2Proof/Machine/BreakerOps.lean ====
section
/-! DEFINITION. The breaker simulator (06_breaker_simulator.md): trip and close commands (R99 to R107), the stages
of one sample (R102 to R112), and its work at a run start, a run end and BRKSET (R94, R116, R118). -/

namespace Sys2Proof.Machine

/-- A BREAKER record of the run in progress (R115). -/
def breakerRecord (time : Nat) (subject : BreakerSubject) (event : BreakerRecord) (duration : Option Nat)
    (s : State) : State :=
  offerRun time (.breaker subject event duration) s

/-- A pole takes a position. -/
def putPole (p : Pole) (x : Position) (s : State) : State :=
  { s with bs := { s.bs with poles := s.bs.poles.put p x } }

/-- R97: an operation started at `start` with this duration has expired at run time t. -/
def expired (t start duration : Nat) : Bool := start + duration ≤ t

/-! ### Trip commands -/

/-- R101: a CLOSING pole goes trip-free; the duration is 0 for a time before the closing's start. -/
def tripFree (time : Nat) (p : Pole) (start : Nat) (s : State) : State :=
  breakerRecord time (.pole p) .tripFree (some (time - start)) (putPole p .opened s)

/-- R99: a trip command with edge time te on one pole it names. -/
def tripPole (te : Nat) (s : State) (p : Pole) : State :=
  match s.bs.poles.get p with
  | .closed => breakerRecord te (.pole p) .tripAccepted none (putPole p (.tripping te) s)
  | .tripping _ => s
  | .arcing _ => s
  | .opened => s
  | .closing start => tripFree te p start s

/-- R99: a trip command on the poles it names, in pole order. -/
def tripPoles (poles : List Pole) (te : Nat) (s : State) : State := poles.foldl (tripPole te) s

/-- R100: the command brings a pole from CLOSED to TRIPPING. -/
def tripsSome (poles : List Pole) (bs : Breaker) : Bool := poles.any fun p => bs.poles.get p = .closed

/-! ### Close commands -/

/-- What a close command meets (R105). -/
inductive CloseVerdict
  | blocked
  | refused
  | accepted
  deriving DecidableEq, Repr

/-- A pole is TRIPPING, ARCING or CLOSING. -/
def Position.isMoving : Position → Bool
  | .closed => false
  | .tripping _ => true
  | .arcing _ => true
  | .opened => false
  | .closing _ => true

/-- R105, in its order. -/
def closeVerdict (bs : Breaker) : CloseVerdict :=
  if bs.spring.isCharged = false then .blocked
  else if bs.poles.any Position.isMoving then .refused
  else if bs.poles.any (fun p => p = .opened) then .accepted
  else .refused

/-- R106: every OPEN pole becomes CLOSING from the edge time. -/
def startClosing (te : Nat) : Position → Position
  | .opened => .closing te
  | .closed => .closed
  | .tripping st => .tripping st
  | .arcing st => .arcing st
  | .closing st => .closing st

/-- R106, R107: a close command with edge time te. -/
def closeBreaker (te : Nat) (s : State) : State :=
  match closeVerdict s.bs with
  | .blocked => breakerRecord te .mechanism .closeBlocked none s
  | .refused => breakerRecord te .mechanism .closeRefused none s
  | .accepted =>
    breakerRecord te .mechanism .closeAccepted none
      { s with bs := { s.bs with poles := s.bs.poles.map (startClosing te), spring := .charging (some te) } }

/-- The exit-triggering event of a close command (R107). -/
def CloseVerdict.events : CloseVerdict → List BreakerEvent
  | .blocked => [.closeBlocked]
  | .refused => [.closeRefused]
  | .accepted => []

/-! ### The stages of a sample (R112) -/

/-- Stage 1 on one pole (R102). -/
def partContacts (t : Nat) (s : State) (p : Pole) : State :=
  match s.bs.poles.get p with
  | .tripping start =>
    if expired t start (s.bs.settings.opening.get p) then
      breakerRecord t (.pole p) .contactsParted (some (t - start)) (putPole p (.arcing t) s)
    else s
  | _ => s

/-- Stage 2 on one pole (R104). -/
def forceOpen (t : Nat) (s : State) (p : Pole) : State :=
  match s.bs.poles.get p with
  | .arcing start =>
    if expired t start s.bs.settings.arcing then
      breakerRecord t (.pole p) .interruptedForced (some (t - start)) (putPole p .opened s)
    else s
  | _ => s

/-- Stage 3 on one pole (R108). -/
def finishClosing (t : Nat) (s : State) (p : Pole) : State :=
  match s.bs.poles.get p with
  | .closing start =>
    if expired t start s.bs.settings.closing then
      breakerRecord t (.pole p) .closed (some (t - start)) (putPole p .closed s)
    else s
  | _ => s

/-- A closing ends at this sample. -/
def closingEnds (t : Nat) (bs : Breaker) : Bool :=
  bs.poles.any fun p => match p with
    | .closing start => expired t start bs.settings.closing
    | _ => false

/-- Stage 3's end: all three poles are CLOSED after this sample's closings (R108). -/
def closesAll (t : Nat) (before after : Breaker) : Bool :=
  closingEnds t before && after.poles.every (fun p => p = .closed)

/-- Stages 1 to 3, in pole order. -/
def breakerExpiries (t : Nat) (s0 : State) : State :=
  let s1 := poleOrder.foldl (partContacts t) s0
  let s2 := poleOrder.foldl (forceOpen t) s1
  let s3 := poleOrder.foldl (finishClosing t) s2
  if closesAll t s2.bs s3.bs then breakerRecord t .mechanism .allClosed none s3 else s3

/-- Stage 4 on one pole (R103): the candidate and s_prev of its current channel. -/
def interruptPole (t : Nat) (s : State) (p : Pole) : State :=
  match s.bs.poles.get p with
  | .arcing start =>
    let x := s.ws.live[currentChannel p]
    if crossesZero (channelSum (currentChannel p) x).1 x.sPrev then
      breakerRecord t (.pole p) .interrupted (some (t - start)) (putPole p .opened s)
    else s
  | _ => s

def interruptPoles (t : Nat) (s : State) : State := poleOrder.foldl (interruptPole t) s

/-- Stage 5 (R109). -/
def chargeSpring (t : Nat) (s : State) : State :=
  match s.bs.spring with
  | .charging (some start) =>
    if expired t start s.bs.settings.charge then
      breakerRecord t .mechanism .springCharged (some (t - start)) { s with bs := { s.bs with spring := .charged } }
    else s
  | _ => s

/-- R111: the effect of a discrepancy trip on one pole. -/
def discrepancyPole (t : Nat) (s : State) (p : Pole) : State :=
  match s.bs.poles.get p with
  | .closed => putPole p (.tripping t) s
  | .closing start => tripFree t p start s
  | _ => s

/-- R111. -/
def discrepancyTrip (t start : Nat) (s : State) : State :=
  breakerRecord t .mechanism .discrepancyTrip (some (t - start)) (poleOrder.foldl (discrepancyPole t) s)

/-- The discrepancy phase takes a value. -/
def putDiscrepancy (x : Discrepancy) (s : State) : State := { s with bs := { s.bs with discrepancy := x } }

/-- The discrepancy timer expires at this sample (R110). -/
def discrepancyExpires (t : Nat) (bs : Breaker) : Bool :=
  match bs.discrepancy with
  | .timing start =>
    bs.settings.discrepancy ≠ 0 && disagreement bs.poles && expired t start bs.settings.discrepancy
  | .idle => false
  | .spent _ => false

/-- Stage 6 (R110, R111). With a discrepancy time of 0 the phase stays IDLE. -/
def judgeDiscrepancy (t : Nat) (s : State) : State :=
  if s.bs.settings.discrepancy = 0 then s
  else if disagreement s.bs.poles then
    match s.bs.discrepancy with
    | .idle => putDiscrepancy (.timing t) s
    | .timing start =>
      if expired t start s.bs.settings.discrepancy then discrepancyTrip t start (putDiscrepancy (.spent start) s)
      else s
    | .spent _ => s
  else putDiscrepancy .idle s

/-- The events of one sample, in the order of R113's table (R114). -/
def sampleEvents (before after : PerPole Position) (allClosed tripped : Bool) : List BreakerEvent :=
  poleEvents before after ++ (if allClosed then [.allClosed] else []) ++
    (if tripped then [.discrepancyTrip] else [])

/-! ### Boundaries -/

/-- An initial position from BRKSET. -/
def initialPosition (closed : Bool) : Position := if closed then .closed else .opened

/-- R94: the initial positions and spring, nothing timed. -/
def applyInitial (s : State) : State :=
  { s with bs := { s.bs with
      poles := s.bs.settings.initialClosed.map initialPosition
      spring := if s.bs.settings.initialCharged then .charged else .charging none
      discrepancy := .idle } }

/-- R116. -/
def startBreaker (s : State) : State :=
  { s with bs := { s.bs with
      poles := s.bs.settings.initialClosed.map initialPosition
      spring := if s.bs.settings.initialCharged then .charged else .charging (some 0)
      discrepancy := .idle
      active := true } }

/-- R118 on one pole. -/
def resolvePole (t : Nat) (s : State) (p : Pole) : State :=
  if (s.bs.poles.get p).isMoving then breakerRecord t (.pole p) .resolved none (putPole p .opened s) else s

/-- R118: at a run end the spring keeps its state and loses its charge start. -/
def stopSpring : Spring → Spring
  | .charged => .charged
  | .charging _ => .charging none

/-- R118. -/
def stopBreaker (t : Nat) (s : State) : State :=
  let s := poleOrder.foldl (resolvePole t) s
  { s with bs := { s.bs with spring := stopSpring s.bs.spring, discrepancy := .idle, active := false } }

end Sys2Proof.Machine
end

