-- ==== Sys2Proof/Machine/SequencerOps.lean ====
section
/-! DEFINITION. The sequencer (09_run_sequencing.md): counters (R156), matches, latching and taking of exits
(R157 to R161), state entry (R154, R155), the run end (R166 to R169), one sample of a run (R67, R112, R158, R162)
and the run start with its elapsed samples (R55, R152). -/

namespace Sys2Proof.Machine

/-! ### Counters (R156) -/

/-- Counter c is decremented to zero by an event of this source. -/
def zeroedBy (source : CounterSource) (s : State) (c : Fin 4) : Bool :=
  s.st.sources[c] = source && s.sq.counters[c] = 1

/-- Every counter of this source decrements by one; a counter at 0 stays at 0. -/
def decrementBy (source : CounterSource) (s : State) : State :=
  { s with sq := { s.sq with
      counters := .ofFn fun c => if s.st.sources[c] = source then s.sq.counters[c] - 1 else s.sq.counters[c] } }

/-! ### The pending records of the contact inputs at a run end (R48) -/

/-- The INPUT_EDGE body of a pending record (R46). -/
def inputEdgeBody (input : Fin 13) (e : PendingEdge) (bounces : Nat) : RecordBody :=
  .inputEdge input e.direction e.edgeTime e.noise e.glitches bounces e.injected

/-- BI(k+1) takes a value. -/
def putInput (k : Fin 12) (x : ContactInput) (s : State) : State :=
  { s with ci := { s.ci with inputs := s.ci.inputs.set k x } }

def putSync (x : SyncInput) (s : State) : State := { s with ci := { s.ci with sync := x } }

/-- The input number of BI(k+1). -/
def inputNumber (k : Fin 12) : Fin 13 := k.succ

/-- A pending record is offered with the bounces counted so far, and is no longer pending. -/
def writePending (t : Nat) (s : State) (k : Fin 12) : State :=
  let x := s.ci.inputs[k]
  match x.pendingEdge with
  | some e => offerRun t (inputEdgeBody (inputNumber k) e x.bounces) (putInput k { x with pendingEdge := none } s)
  | none => s

def writePendingSync (t : Nat) (s : State) : State :=
  match s.ci.sync.pendingEdge with
  | some e => offerRun t (inputEdgeBody 0 e 0) (putSync { s.ci.sync with pendingEdge := none } s)
  | none => s

/-- R48: every input with a pending record offers it, SYNC IN first, then BI1..BI12 (log 16). -/
def writeAllPending (t : Nat) (s : State) : State :=
  (List.finRange 12).foldl (writePending t) (writePendingSync t s)

/-! ### Run end (R167 to R169) -/

/-- The wait, chain or run is over: the sequencer is IDLE, the run settings and the gap end absent. -/
def toIdle (s : State) : State :=
  { s with sq := { s.sq with state := .idle, settings := none, gapEnd := none } }

/-- R169: where the sequencer goes after a run end. A first state that was cleared during the run is held as it
is, EMPTY: the model's choice (log 36). -/
def goOn (outcome : RunOutcome) (s : State) : State :=
  match outcome, s.sq.settings with
  | .complete, some r =>
    match r.mode with
    | .repeated =>
      if 0 < s.sq.remainder then
        { s with sq := { s.sq with state := .gap, gapEnd := some (s.count + 10 * r.gap) } }
      else toIdle s
    | .triggered => { s with sq := { s.sq with state := .armed } }
    | .single => toIdle s
  | _, _ => toIdle s

/-- HALTED, AMPFAULT and LIMIT abandon the OPEN items (R180). -/
def RunOutcome.abandons : RunOutcome → Bool
  | .complete => false
  | .table => false
  | .halted => true
  | .ampFault => true
  | .limit => true

/-- R168: the RUN_END record's content at a run time. -/
def runEndBody (outcome : RunOutcome) (t : Nat) (s : State) : RecordBody :=
  .runEnd outcome t s.sq.visited s.asmt.pass s.asmt.nonPass
    (match (wrapNumbers s.rs).window with | some w => w.lost | none => 0)

/-- R167, steps 1 to 5: judging stops, the visit ends, pending records, clip ends, the breaker resolved. -/
def closeAccounts (outcome : RunOutcome) (t : Nat) (s0 : State) : State :=
  let s1 := { s0 with sq := { s0.sq with taken := none, guard := none, entrySample := false } }
  let s2 := endVisit outcome.abandons t s1
  let s3 := writeAllPending t s2
  let s4 := clearSynthesis (closeClips t s3)
  stopBreaker t s4

/-- R167, steps 6 to 9: the RUN_END record, the outputs, the latch, the outcome and the notice. The outputs follow after
the RUN_END record, so a FILL notice that it, or a RESOLVED record before it, raises shows the resolved poles beside the
outputs of before: the model's choice (log 35). The RUN_END notice replaces a FILL or AMP_FAULT notice of the same
instant: the model's choice (log 40). -/
def finishRun (outcome : RunOutcome) (t : Nat) (s0 : State) : State :=
  let s1 := offerRun t (runEndBody outcome t s0) s0
  let s2 := refreshOutputs false { s1 with bo := { s1.bo with pattern := 0 } }
  let s3 := { s2 with
    tb := { s2.tb with latch := none }
    sq := { s2.sq with lastOutcome := some outcome, current := none } }
  raiseNotice .runEnd s3

/-- R166, R167: the run ends at the present count. -/
def runEnd (outcome : RunOutcome) (s : State) : State :=
  let t := s.now
  goOn outcome (finishRun outcome t (closeAccounts outcome t s))

/-- An armed wait or a chain ends at IDLE without a run and without a record, with a CHAIN_END notice (R149,
R150, R151, R165, R170). -/
def endWait (s : State) : State := raiseNotice .chainEnd (toIdle s)

/-! ### Exits (R157 to R161) -/

/-- The entry of the current state. -/
def State.currentEntry (s : State) : Option Entry :=
  match s.sq.current with
  | some n => s.st.entries[n]
  | none => none

/-- The exit of lowest index whose trigger matches, with its index. -/
def firstMatch (m : Trigger → Bool) (exits : List Exit) : Option (Exit × Nat) :=
  exits.zipIdx.find? fun p => m p.1.trigger

/-- R161, step 1. -/
def applyMarkAction (a : Option MarkAction) (marks : BitVec 16) : BitVec 16 :=
  match a with
  | none => marks
  | some (.set m) => marks ||| (1#16 <<< m.val)
  | some (.clear m) => marks &&& ~~~(1#16 <<< m.val)

/-- R161: an exit is taken at this instant. -/
def takeExit (index : Nat) (x : Exit) (exitTime : Nat) (causeTime : Option Nat) (s : State) : State :=
  let s := { s with sq := { s.sq with
    marks := applyMarkAction x.action s.sq.marks
    taken := some ⟨x.target, Fin.ofNat 6 index, exitTime, causeTime⟩
    guard := none } }
  match x.target with
  | .finish => s
  | .state n =>
    match s.st.entries[n] with
    | none => runEnd .table s
    | some e => if e.inception.isSome then { s with sq := { s.sq with state := .pointing } } else s

/-- R159: a decided match during the guard. For an equal index the latch is kept with its cause time, also where the
later match carries an earlier event time: the model's choice (log 42). -/
def latchExit (g : Guard) (index : Nat) (time : Nat) (s : State) : State :=
  let new : Latch := ⟨Fin.ofNat 6 index, time⟩
  let latch : Latch := match g.latch with
    | none => new
    | some l => if new.index < l.index then new else l
  { s with sq := { s.sq with guard := some { g with latch := some latch } } }

/-- Exits are judged in RUNNING while no exit has been taken in the visit (R157). -/
def State.judges (s : State) : Bool := s.sq.state = .running && s.sq.taken.isNone

/-- R157, R159: an event, or a set handed together, between samples: the match of lowest index is taken, or
latched during a guard. -/
def judgeEvent (m : Trigger → Bool) (time : Nat) (s : State) : State :=
  if s.judges then
    match s.currentEntry with
    | none => s
    | some e =>
      match firstMatch m e.exits with
      | none => s
      | some (x, i) =>
        match s.sq.guard with
        | some g => latchExit g i time s
        | none => takeExit i x time none s
  else s

/-- R160: the guard's expiry sample decides among the latch and the sample's own set. -/
def expireGuard (e : Entry) (latch : Option Latch) (found : Option (Exit × Nat)) (t : Nat) (s : State) : State :=
  let s := { s with sq := { s.sq with guard := none } }
  let takeFound := match found with
    | some (x, i) => takeExit i x t none s
    | none => s
  match latch with
  | none => takeFound
  | some l =>
    match e.exits[l.index.val]? with
    | none => takeFound
    | some y =>
      match found with
      | some (_, i) => if i < l.index.val then takeFound else takeExit l.index.val y t (some l.causeTime) s
      | none => takeExit l.index.val y t (some l.causeTime) s

/-- The entry time of the visit under way. -/
def State.entryTime (s : State) : Nat :=
  match s.asmt.visit with
  | some v => v.entryTime
  | none => 0

/-- R158: an AFTER exit fires at the first sample whose run time is not earlier than the entry time plus t. The
sample lies at `count`. -/
def afterFires (s : State) (count : Nat) (time : Nat) : Bool :=
  s.entryTime + time ≤ s.runTimeAt count &&
    (s.sq.entrySample || s.runTimeAt (count - 500) < s.entryTime + time)

/-- R158: what a trigger meets in the set of a sample at `count` with these breaker events. -/
def sampleMatches (s : State) (count : Nat) (events : List BreakerEvent) : Trigger → Bool
  | .after time => afterFires s count time
  | .breaker e => events.contains e
  | .mark m => s.sq.entrySample && s.sq.marks.getLsbD m.val
  | .count c => s.sq.entrySample && s.sq.counters[c] = 0
  | .edge _ _ => false
  | .sync => false
  | .go => false

/-- R158 to R160: the sequencer judges the sample's set. -/
def judgeSample (count : Nat) (events : List BreakerEvent) (s : State) : State :=
  let t := s.runTimeAt count
  if s.judges then
    match s.currentEntry with
    | none => s
    | some e =>
      let found := firstMatch (sampleMatches s count events) e.exits
      match s.sq.guard with
      | some g =>
        if t < g.expiry then
          match found with
          | some (_, i) => latchExit g i t s
          | none => s
        else expireGuard e g.latch found t s
      | none =>
        match found with
        | some (x, i) => takeExit i x t none s
        | none => s
  else s

/-- What a delivered event meets (R157): its own trigger, and the COUNT exits of the counters it decrements to
zero. -/
def eventMatches (own : Trigger) (zeroed : Fin 4 → Bool) : Trigger → Bool
  | .count c => zeroed c
  | t => t = own

/-- R45, R156, R157: a contact edge at the sequencer. Only an ACTIVE edge is a counter source. -/
def sequenceEdge (input : Fin 13) (direction : Direction) (time : Nat) (s : State) : State :=
  match direction with
  | .active =>
    judgeEvent (eventMatches (.edge input .active) (zeroedBy (.edge input) s)) time
      (decrementBy (.edge input) s)
  | .inactive => judgeEvent (eventMatches (.edge input .inactive) fun _ => false) time s

/-- R114, R157: the breaker events of one command, handed together with the counted event, if any: the counted event
comes first and decrements its counters, then the assessment unit judges the other events, and the exits are judged on
the set. That the assessment unit comes before the exits is the model's choice (log 37). -/
def handCommandEvents (counted : Option CounterSource) (events : List BreakerEvent) (time : Nat) (s0 : State) :
    State :=
  let zeroed : Fin 4 → Bool := match counted with
    | some source => zeroedBy source s0
    | none => fun _ => false
  let s1 := match counted with
    | some source => decrementBy source s0
    | none => s0
  judgeEvent (fun trigger => match trigger with
    | .breaker e => events.contains e
    | .count c => zeroed c
    | _ => false) time (assessBreakerEvents events time s1.now s1)

/-! ### State entry (R154) -/

/-- R155: the STATE_ENTRY record. -/
def stateEntryBody (n : Fin 24) (visit t : Nat) (fromState : Option (Fin 24)) (taken : Option TakenExit) :
    RecordBody :=
  .stateEntry n visit t fromState
    (if fromState.isSome then taken.map (·.index) else none)
    (taken.bind fun x => if x.exitTime ≠ t then some x.exitTime else none)
    (taken.bind (·.causeTime))

/-- R154, step 3. -/
def loadCounters (e : Entry) (s : State) : State :=
  { s with sq := { s.sq with counters := .ofFn fun c => (e.loads[c]).getD s.sq.counters[c] } }

/-- R126: the pattern is loaded and every STATE_BIT output follows. -/
def loadPattern (pattern : BitVec 8) (s : State) : State :=
  refreshOutputs true { s with bo := { s.bo with pattern := pattern } }

/-- R154, step 6. -/
def countVisit (n : Fin 24) (s : State) : State :=
  { s with sq := { s.sq with
    visits := s.sq.visits.set n (min 65535 (s.sq.visits[n] + 1))
    visited := s.sq.visited + 1 } }

/-- R154, step 9. -/
def setGuard (e : Entry) (t : Nat) (s : State) : State :=
  { s with sq := { s.sq with
    guard := if 0 < e.guard then some ⟨t + e.guard, none⟩ else none
    entrySample := true } }

/-- R154: state n is entered at a sample of run time t. An EMPTY entry is not entered: R139 and R152 exclude it, but for
a first state cleared during an earlier run of its chain, where this is the model's choice (log 36). -/
def enterState (n : Fin 24) (t : Nat) (s0 : State) : State :=
  match s0.st.entries[n] with
  | none => s0
  | some e =>
    let fromState := if s0.asmt.visit.isSome then s0.sq.current else none
    let s1 := endVisit false t s0
    let s2 := { s1 with sq := { s1.sq with current := some n, taken := none, state := .running } }
    let s3 := decrementBy (.entry n) (loadCounters e s2)
    let s4 := countVisit n (loadPattern e.pattern (loadEntry e s3))
    let s5 := offerRun t (stateEntryBody n s4.sq.visits[n] t fromState s0.sq.taken) s4
    setGuard e t (openVisit n s4.sq.visits[n] t e.items s5)

/-! ### One sample of a run -/

/-- The run time limit (00_scope.md). -/
def runTimeLimit : Nat := 4000000000

/-- An exit to END has been taken. -/
def State.ending (s : State) : Bool :=
  match s.sq.taken with
  | some x => x.target = .finish
  | none => false

/-- R166: the run end that takes the place of a sample of run time t; COMPLETE before LIMIT. -/
def sampleEnd (t : Nat) (s : State) : Option RunOutcome :=
  if s.ending then some .complete else if runTimeLimit ≤ t then some .limit else none

/-- R162: the sample passes for the target's inception angle. -/
def pointReached (s : State) (n : Fin 24) : Bool :=
  match s.st.entries[n] with
  | some e =>
    match e.inception with
    | some angle => (s.ws.r - anglePhase angle).toNat < s.ws.dRef.toNat
    | none => true
  | none => true

/-- R161, R162: the entry due at this sample, if any. -/
def entryDue (s : State) : Option (Fin 24) :=
  match s.sq.taken with
  | some x =>
    match x.target with
    | .state n => if s.sq.state = .pointing then (if pointReached s n then some n else none) else some n
    | .finish => none
  | none => none

/-- Before the sample is computed: the due state is entered. -/
def beginSample (t : Nat) (s : State) : State :=
  match entryDue s with
  | some n => enterState n t s
  | none => s

/-- Eight zero codes (R54). -/
def zeroCodes : Vector Int 8 := .replicate 8 0

/-- Stage 4 of R112 and the stages of R67: interruption, the codes, the clip episodes and the advance, with the
positions that stages 1 to 3 have left. -/
def computeWaves (t : Nat) (s0 : State) : State × Vector Int 8 :=
  let s1 := if s0.sq.entrySample then dropOpenDc s0 else s0
  let s2 := interruptPoles t s1
  let s3 := clipEpisodes t s2
  (advanceAll s3, sampleCodes s3)

/-- The breaker and waveform work of one sample, before its events are judged: the state, the codes, and the
sample's breaker events (R112, stages 1 to 6; R124). The outputs follow after the sample's records, which a FILL notice
raised by one of them shows: the model's choice (log 35). -/
def computeSample (t : Nat) (s0 : State) : State × Vector Int 8 × List BreakerEvent :=
  let s1 := breakerExpiries t s0
  let waves := computeWaves t s1
  let s2 := waves.1
  let s3 := judgeDiscrepancy t (chargeSpring t s2)
  let events := sampleEvents s0.bs.poles s3.bs.poles (closesAll t s0.bs s1.bs) (discrepancyExpires t s2.bs)
  (refreshOutputs true s3, waves.2, events)

/-- The events of the sample at `count` reach the assessment unit, then the sequencer judges its set (R114, R158,
R174). -/
def judgeSampleEvents (count : Nat) (events : List BreakerEvent) (s0 : State) : State :=
  let t := s0.runTimeAt count
  let s1 := judgeSample count events (assessBreakerEvents events t t s0)
  { s1 with sq := { s1.sq with entrySample := false } }

/-- One sample of a run, at `count`, and its codes: the run end that takes its place, or the whole sample (R67,
R112). -/
def runSample (count : Nat) (s : State) : State × Vector Int 8 :=
  let t := s.runTimeAt count
  match sampleEnd t s with
  | some outcome => (runEnd outcome s, zeroCodes)
  | none =>
    let done := computeSample t (beginSample t s)
    (judgeSampleEvents count done.2.2 done.1, done.2.1)

/-! ### Run start (R152) -/

/-- The number of elapsed samples of a run with T0 taken at X (R55): the samples before X, and the one at X if
its instant was already taken. -/
def elapsedCount (t0 x : Nat) (taken : Bool) : Nat :=
  (x - t0 + 499) / 500 + (if (x - t0) % 500 = 0 ∧ taken then 1 else 0)

/-- The first instant after x of the grid through `count` (R55, a run end at an elapsed sample). -/
def gridAfter (count x : Nat) : Nat := count + 500 * ((x - count) / 500 + 1)

/-- R55: the elapsed samples are computed in order, the first at `count`, until a run end; then the grid goes
on. -/
def runElapsed : Nat → Nat → State → State
  | 0, count, s => { s with ws := { s.ws with nextGrid := count } }
  | n + 1, count, s =>
    let s' := (runSample count s).1
    if s'.inRun then runElapsed n (count + 500) s'
    else { s' with ws := { s'.ws with nextGrid := gridAfter count s'.count } }

/-- R152, steps 1 and 2: the run's number and remainder; marks, counters, counts and tallies cleared. -/
def newRun (r : RunSettings) (s : State) : State :=
  { s with
    sq := { s.sq with
      remainder := match r.mode with
        | .repeated => s.sq.remainder - 1
        | .single => s.sq.remainder
        | .triggered => s.sq.remainder
      runNumber := if s.sq.runNumber = 65535 then 1 else s.sq.runNumber + 1
      current := none, taken := none, guard := none, visits := .replicate 24 0, visited := 0, marks := 0
      counters := .replicate 4 0, gapEnd := none, entrySample := false }
    asmt := .reset }

/-- R28, R30: any pending correction is adopted, and the latch formed with the c now in force; R151: a run that was armed
when a calibration finished (`held`) latches the old correction, the c of before the adoption (log 10). -/
def TimeBase.latchAt (t0 : Nat) (held : Bool) (tb : TimeBase) : TimeBase :=
  let c := tb.pendingC.getD tb.c
  { tb with c := c, pendingC := none, latch := some ⟨t0, if held then tb.c else c⟩ }

/-- R152, step 3. -/
def latchRun (t0 : Nat) (s : State) : State := { s with tb := s.tb.latchAt t0 s.sq.resultHeld }

/-- R90: overload counts 0 and episodes closed. -/
def AmpGroup.clearOverload (g : AmpGroup) : AmpGroup :=
  { g with overRun := .replicate 4 0, episode := .replicate 4 false }

/-- R152, step 4: the signal path and the breaker start the run. -/
def startBlocks (r : RunSettings) (s0 : State) : State :=
  let s1 := clearSynthesis s0
  let s2 := { s1 with
    ws := { s1.ws with dRef := increment r.frequency s1.cRun }
    al := ⟨s1.al.v.clearOverload, s1.al.i.clearOverload⟩
    bo := { s1.bo with pattern := 0 } }
  refreshOutputs true (startBreaker s2)

/-- R153. -/
def runStartBody (r : RunSettings) (internal : Bool) (s : State) : RecordBody :=
  .runStart r.mode r.trigger r.first r.frequency s.cRun (if s.tb.epoch then some s.tb.second else none)
    (s.tb.state = .holdover || internal)

/-- R152: a run starts at the present count with T0 as its trigger placed it; `internal` for a run started at an
internal mark. -/
def startRun (t0 : Nat) (internal : Bool) (s0 : State) : State :=
  match s0.sq.settings with
  | none => s0
  | some r =>
    let s1 := startBlocks r (latchRun t0 (newRun r s0))
    let s2 := offer s1.sq.runNumber 0 (runStartBody r internal s1) s1
    let s3 := enterState r.first 0 { s2 with sq := { s2.sq with state := .running, resultHeld := false } }
    runElapsed (elapsedCount t0 s3.count (s3.ws.lastGrid = some s3.count)) t0 s3

/-- R150: at a trigger the store needs 2 free places; without them the wait ends. -/
def tryStart (t0 : Nat) (internal : Bool) (s : State) : State :=
  if 2 ≤ s.freePlaces then startRun t0 internal s else endWait s

/-- R149: a second mark handed to the sequencer. -/
def handMark (markCount : Nat) (internal : Bool) (s : State) : State :=
  match s.sq.state, s.sq.settings with
  | .armed, some r =>
    if r.trigger = .atSecond then
      if s.tb.second = r.second then tryStart markCount internal s
      else if r.second < s.tb.second then endWait s
      else s
    else s
  | _, _ => s

/-- R50, R148, R157: a SYNC event with the count of its first candidate sample and its edge time. -/
def handSync (firstCount edgeTime : Nat) (s : State) : State :=
  match s.sq.state with
  | .armed =>
    match s.sq.settings with
    | some r => if r.trigger = .sync then tryStart firstCount false s else s
    | none => s
  | .running => judgeEvent (eventMatches .sync fun _ => false) edgeTime s
  | .idle => s
  | .pointing => s
  | .gap => s

/-- R165: a group has left READY. -/
def groupLeftReady (s : State) : State :=
  match s.sq.state with
  | .running => runEnd .ampFault s
  | .pointing => runEnd .ampFault s
  | .armed => endWait s
  | .gap => endWait s
  | .idle => s

/-- R89, R165: an overload event handed while a run is in progress. -/
def handOverload (s : State) : State :=
  if s.inRun then
    match s.sq.settings with
    | some r => if r.action = .abort then runEnd .ampFault s else s
    | none => s
  else s

end Sys2Proof.Machine
end

