-- ==== Sys2Proof/Machine/AmpOps.lean ====
section
/-! DEFINITION. The amplifier link (05_amplifier_link.md): sample frames and their settling (R80, R83),
acknowledgments (R81, R82, R85, R206), faults (R87) and overload (R88, R89); and the grid instant that waveform
synthesis and the amplifier link share (R54, R75). -/

namespace Sys2Proof.Machine

/-- A group takes a value. -/
def putGroup (g : Group) (x : AmpGroup) (s : State) : State := { s with al := s.al.put g x }

/-- R87: a group enters FAULT. The AMP_FAULT notice still waits when a RUN_END or CHAIN_END notice of the same step is
raised, which replaces it, on a free line too: the model's choice (log 40). -/
def enterFault (g : Group) (cause : AmpEvent) (s0 : State) : State :=
  let x := s0.al.get g
  let s1 := putGroup g { x with state := .fault, outstanding := none } s0
  let s2 := raiseNotice .ampFault (offerAt s1.count (.amp g cause none) s1)
  if x.state = .ready then groupLeftReady s2 else s2

/-- A group that is sent frames (R80). -/
def AmpGroup.isSent (x : AmpGroup) : Bool := x.state = .settling || x.state = .ready

/-- R83: an outstanding frame is settled as missed; the fourth miss in a row loses the link. -/
def settleMissed (g : Group) (s : State) : State :=
  let x := s.al.get g
  if x.isSent ∧ x.outstanding.isSome then
    let s1 := putGroup g { x with missed := x.missed + 1, acked := 0, outstanding := none } s
    if 4 ≤ x.missed + 1 then enterFault g .linkLost s1 else s1
  else s

/-- The four codes of a group, in channel order (R75). -/
def groupCodes (g : Group) (codes : Vector Int 8) : Vector Int 4 := .ofFn fun k => codes[groupChannel g k]

/-- R80: one sample frame to a group in SETTLING (zeros) or READY (the codes). -/
def sendFrame (g : Group) (codes : Vector Int 8) (s : State) : State :=
  let x := s.al.get g
  if x.isSent then
    let number := x.frameNumber + 1
    let sent := if x.state = .ready then groupCodes g codes else .replicate 4 0
    putGroup g { x with frameNumber := number, outstanding := some number, lastFrame := some ⟨number, sent⟩ } s
  else s

/-- R80, R83: a frame instant of one group. -/
def frameInstant (g : Group) (codes : Vector Int 8) (s : State) : State := sendFrame g codes (settleMissed g s)

/-! ### Acknowledgments -/

/-- R81: the acknowledgment is taken. -/
def ackTaken (x : AmpGroup) (number flags : Byte) (check : Half) : Bool :=
  check = ackCheck number flags && x.isSent && x.outstanding = some number

/-- R88, R89 on one channel of a group. -/
def applyOverload (g : Group) (flags : Byte) (s : State) (k : Fin 4) : State :=
  let x := s.al.get g
  let counted := countOverload (overloadFlag flags k) x.overRun[k] x.episode[k]
  let s1 := putGroup g { x with overRun := x.overRun.set k counted.1, episode := x.episode.set k counted.2.1 } s
  if counted.2.2 then handOverload (offerAt s1.count (.amp g .overload (some (groupChannel g k))) s1) else s1

/-- R82, step 3: the acknowledged count, and READY at the 2,000th (R85). -/
def AmpGroup.countAck (x : AmpGroup) : AmpGroup :=
  let acked := min 2000 (x.acked + 1)
  { x with acked := acked, state := if x.state = .settling ∧ acked = 2000 then .ready else x.state }

/-- R81, R82: an acknowledgment as it arrived. A whole acknowledgment leaves bytes that the receiver holds: the model's
choice (log 39). The flags are applied channel by channel, each with its record and its hand-over (log 26): where one
acknowledgment raises two overload events under ABORT, the first ends the run and the second's AMP record stands after
RUN_END with run 0 and time 0, the model's choice too (log 44). -/
def acknowledge (g : Group) (number flags : Byte) (check : Half) (s : State) : State :=
  let x := s.al.get g
  if ackTaken x number flags check then
    let x1 := { x with outstanding := none, missed := 0 }
    if overTempFlag flags then enterFault g .overTemp (putGroup g x1 s)
    else (List.finRange 4).foldl (applyOverload g flags) (putGroup g x1.countAck s)
  else s

/-- R206: a byte on a sample link. The receiver holds 5Ah and the bytes after it; the fifth byte completes the
acknowledgment. -/
def receiveAckByte (g : Group) (b : Byte) (s : State) : State :=
  let x := s.al.get g
  match x.receiver with
  | [] => if b = 0x5A#8 then putGroup g { x with receiver := [b] } s else s
  | [_, number, flags, low] =>
    acknowledge g number flags (BitVec.ofNat 16 (leValue [low, b])) (putGroup g { x with receiver := [] } s)
  | got => putGroup g { x with receiver := got ++ [b] } s

/-! ### The grid instant -/

/-- The present count is the next grid instant (R54). -/
def gridDue (s : State) : Bool := s.count = s.ws.nextGrid

/-- The grid moves on by 500 counts. -/
def takeGrid (s : State) : State :=
  { s with ws := { s.ws with nextGrid := s.count + 500, lastGrid := some s.count } }

/-- The sample of a run at this instant, or zero codes (R54, R67). -/
def gridSample (s : State) : State × Vector Int 8 :=
  if s.inRun then runSample s.count s else (s, zeroCodes)

/-- R54, R67, R80: a grid instant. The sample's whole work comes first, then the frames, group V first (log 15,
log 26). Both groups carry the codes handed for the instant, even where group V's link loss ends the run at it: the
model's choice (log 34). -/
def gridInstant (s : State) : State :=
  let done := gridSample (takeGrid s)
  let s1 := { done.1 with ws := { done.1.ws with codes := done.2 } }
  frameInstant .i done.2 (frameInstant .v done.2 s1)

/-! ### When a named grid instant is due (log 4) -/

/-- The instant is a sample of a run that no run end takes; its run time. -/
def sampleDue (s : State) : Bool := gridDue s && s.inRun && (sampleEnd s.now s).isNone

/-- R102. -/
def partingDue (p : Pole) (s : State) : Bool :=
  sampleDue s && match s.bs.poles.get p with
    | .tripping start => expired s.now start (s.bs.settings.opening.get p)
    | _ => false

/-- R104. -/
def forcingDue (p : Pole) (s : State) : Bool :=
  sampleDue s && match s.bs.poles.get p with
    | .arcing start => expired s.now start s.bs.settings.arcing
    | _ => false

/-- R108. -/
def closingDue (p : Pole) (s : State) : Bool :=
  sampleDue s && match s.bs.poles.get p with
    | .closing start => expired s.now start s.bs.settings.closing
    | _ => false

/-- R109. -/
def chargeDue (s : State) : Bool :=
  sampleDue s && match s.bs.spring with
    | .charging (some start) => expired s.now start s.bs.settings.charge
    | _ => false

/-- R111: judged on the positions that stages 1 to 4 of the sample leave. -/
def discrepancyDue (s : State) : Bool :=
  sampleDue s && discrepancyExpires s.now (computeWaves s.now (breakerExpiries s.now (beginSample s.now s))).1.bs

/-- The state in which the sample's set is judged (R158). -/
def judgedState (s : State) : State := (computeSample s.now (beginSample s.now s)).1

/-- R158: the exit of this index is an AFTER exit that fires at this sample. -/
def afterDue (index : Fin 6) (s : State) : Bool :=
  sampleDue s && (judgedState s).judges && match (judgedState s).currentEntry with
    | some e => match e.exits[index.val]? with
      | some x => match x.trigger with
        | .after time => afterFires (judgedState s) s.count time
        | _ => false
      | none => false
    | none => false

/-- R160: the guard's expiry sample. -/
def guardDue (s : State) : Bool :=
  sampleDue s && (judgedState s).judges && match (judgedState s).sq.guard with
    | some g => g.expiry ≤ s.now
    | none => false

/-- R166: the run end LIMIT takes this sample. -/
def limitDue (s : State) : Bool := gridDue s && s.inRun && sampleEnd s.now s = some .limit

/-- R83: this frame instant loses the link of a group. -/
def linkLossDue (g : Group) (s : State) : Bool :=
  gridDue s && (s.al.get g).isSent && (s.al.get g).outstanding.isSome && (s.al.get g).missed = 3

/-- R85: this acknowledgment completes settling. -/
def settlingDue (g : Group) (number flags : Byte) (check : Half) (s : State) : Bool :=
  ackTaken (s.al.get g) number flags check && !overTempFlag flags && (s.al.get g).state = .settling &&
    (s.al.get g).acked = 1999

/-- R88: this acknowledgment raises the overload event of a channel. -/
def overloadDue (g : Group) (k : Fin 4) (number flags : Byte) (check : Half) (s : State) : Bool :=
  ackTaken (s.al.get g) number flags check && !overTempFlag flags &&
    (countOverload (overloadFlag flags k) (s.al.get g).overRun[k] (s.al.get g).episode[k]).2.2

end Sys2Proof.Machine
end

