-- ==== Sys2Proof/Machine/ContactOps.lean ====
section
/-! DEFINITION. The contact inputs (03_contact_inputs.md): the contact sample (R34, R39), qualification (R37,
R38, R49), the window end (R40), INJECT's edge (R42), and the delivery of edges (R43 to R45, R50). -/

namespace Sys2Proof.Machine

/-! ### Delivery (R43 to R45) -/

/-- The poles a role's trip command names (R44). -/
def Role.tripPoles : Role → List Pole
  | .tripA => [.a]
  | .tripB => [.b]
  | .tripC => [.c]
  | .trip3P => [.a, .b, .c]
  | .timing => []
  | .close => []

/-- R99 to R101, R113, R114: a trip command with edge time te, and the events it gives. -/
def commandTrip (poles : List Pole) (te : Nat) (s0 : State) : State :=
  let counted := if tripsSome poles s0.bs then some CounterSource.tripAccepted else none
  let s1 := refreshOutputs true (tripPoles poles te s0)
  handCommandEvents counted (poleEvents s0.bs.poles s1.bs.poles) te s1

/-- R105 to R107, R113: a close command with edge time te, and the events it gives. The outputs follow after the
records, which a FILL notice raised by one of them shows: the model's choice (log 35). -/
def commandClose (te : Nat) (s0 : State) : State :=
  let verdict := closeVerdict s0.bs
  let counted := if verdict = .accepted then some CounterSource.closeAccepted else none
  handCommandEvents counted verdict.events te (refreshOutputs true (closeBreaker te s0))

/-- R44: an ACTIVE edge of an input with this role at the breaker simulator. -/
def commandEdge (role : Role) (te : Nat) (s : State) : State :=
  match role with
  | .timing => s
  | .close => commandClose te s
  | .tripA => commandTrip Role.tripA.tripPoles te s
  | .tripB => commandTrip Role.tripB.tripPoles te s
  | .tripC => commandTrip Role.tripC.tripPoles te s
  | .trip3P => commandTrip Role.trip3P.tripPoles te s

/-- The consumers of a contact edge (R43). -/
inductive Consumer
  | breaker
  | assessment
  | sequencer
  deriving DecidableEq, Repr

/-- The six orders in which the consumers can act (log 3). -/
def consumersInOrder (order : Fin 6) : List Consumer :=
  match order.val with
  | 0 => [.breaker, .assessment, .sequencer]
  | 1 => [.breaker, .sequencer, .assessment]
  | 2 => [.assessment, .breaker, .sequencer]
  | 3 => [.assessment, .sequencer, .breaker]
  | 4 => [.sequencer, .breaker, .assessment]
  | _ => [.sequencer, .assessment, .breaker]

/-- One consumer's reaction to an edge; an edge that finds no run in progress reaches no consumer (R43, R185). -/
def consumeEdge (input : Fin 13) (role : Role) (direction : Direction) (te : Nat) (s : State) (x : Consumer) :
    State :=
  if s.inRun then
    match x with
    | .breaker => if direction = .active then commandEdge role te s else s
    | .assessment => assessEvent (.edge input direction) te s.now s
    | .sequencer => sequenceEdge input direction te s
  else s

/-- The delivery of an edge to its consumers in a given order. -/
def deliverInOrder (order : Fin 6) (input : Fin 13) (role : Role) (direction : Direction) (te : Nat) (s : State) :
    State :=
  (consumersInOrder order).foldl (consumeEdge input role direction te) s

/-- R43: an edge of BI1..BI12 is delivered; the order of its consumers is free. -/
def deliverEdge (input : Fin 13) (role : Role) (direction : Direction) (te : Nat) (s : State) : State :=
  if s.inRun then
    deliverInOrder (Config.consumerOrder s.free) input role direction te { s with free := s.free + 1 }
  else s

/-! ### Sample 0 before the first command (R117) -/

/-- Sample 0 of the run in progress lies at the present count and has not been taken (R55). -/
def firstSampleDue (s : State) : Bool :=
  gridDue s && s.inRun && match s.tb.latch with
    | some l => l.t0 = s.count
    | none => false

/-- R117: no command can have acted at sample 0. Where BI(k+1) has a trip or close role and is about to give an ACTIVE
edge (R44, R98) at the count of a sample 0 not yet taken, the grid instant is taken first, in the same step (log 43). -/
def firstSampleFirst (k : Fin 12) (active : Bool) (s : State) : State :=
  if active && s.ci.inputs[k].role ≠ .timing && firstSampleDue s then gridInstant s else s

/-! ### The contact sample (R34) -/

/-- A logical sample at the qualifier (R37, R39): a candidate begins or goes on. -/
def stepQualifier (count : Nat) (level settled : Bool) (q : Qualifier) : Qualifier :=
  match q with
  | .steady => if level = settled then .steady else .candidate count [level]
  | .candidate first samples => if samples.length < 3 then .candidate first (samples ++ [level]) else q
  | .window _ => q

/-- R39: in a window, a raw sample that differs from the one before it counts one bounce. The window-end sample's
own bounce is counted by the window end (`countLastBounce`), so that a run end taken before it (R48) leaves both out. -/
def stepBounces (count : Nat) (raw : Bool) (x : ContactInput) : Nat :=
  match x.qualifier with
  | .window endCount => if count < endCount ∧ raw ≠ x.history.newest then bump255 x.bounces else x.bounces
  | .steady => x.bounces
  | .candidate _ _ => x.bounces

/-- One raw sample of a BI input (R34, R36). -/
def sampleInput (count : Nat) (raw : Bool) (x : ContactInput) : ContactInput :=
  let history := x.history.push raw
  match x.mode with
  | .contact =>
    { x with
      history := history
      bounces := stepBounces count raw x
      qualifier := stepQualifier count (logicalLevel x.polarity raw) x.settled x.qualifier }
  | .off => { x with history := history }
  | .injected => { x with history := history }

/-- One raw sample of SYNC IN (R49). -/
def sampleSync (count : Nat) (raw : Bool) (x : SyncInput) : SyncInput :=
  { x with history := x.history.push raw, qualifier := stepQualifier count raw x.settled x.qualifier }

/-- The present count is a count of the sampling grid that has not been taken (R34). -/
def contactSampleDue (s : State) : Bool := s.count = s.ci.nextSample

/-- R34: one raw sample of every input. -/
def takeContactSample (contacts : BitVec 12) (sync : Bool) (s : State) : State :=
  { s with
    contactLines := contacts
    syncLine := sync
    ci :=
      { inputs := .ofFn fun k => sampleInput s.count (contacts.getLsbD k.val) s.ci.inputs[k]
        sync := sampleSync s.count sync s.ci.sync
        nextSample := s.count + 100 } }

/-! ### Edges of BI1..BI12 -/

/-- The pending record of an edge whose instant falls in a run (R46). -/
def pendingFor (s : State) (direction : Direction) (edgeCount : Nat) (noise : Bool) (glitches : Nat)
    (injected : Bool) : Option PendingEdge :=
  if s.inRun then some ⟨direction, s.runTimeAt edgeCount, noise, glitches, injected⟩ else none

/-- How many candidate samples differ from the settled level (R37). -/
def differing (settled : Bool) (samples : List Bool) : Nat := (samples.filter (fun x => x ≠ settled)).length

/-- The input after a qualified edge (R37, R39): settled flipped, glitches taken, a window opened if W > 0. -/
def afterEdge (count : Nat) (pending : Option PendingEdge) (x : ContactInput) : ContactInput :=
  { x with
    settled := !x.settled
    glitches := 0
    bounces := 0
    pendingEdge := pending
    qualifier := if x.window = 0 then .steady else .window (count + 10 * x.window) }

/-- R37, R38: the third candidate sample of BI(k+1). The edge time of a candidate that began before the run start but
not before T0 is the model's choice (log 32). -/
def qualifyInput (k : Fin 12) (s : State) : State :=
  let x := s.ci.inputs[k]
  match x.qualifier with
  | .candidate first samples =>
    if samples.length = 3 then
      let n := differing x.settled samples
      if 2 ≤ n then
        let direction := Direction.ofLevel (!x.settled)
        let pending := pendingFor s direction first (n = 2) x.glitches false
        let s1 := putInput k (afterEdge s.count pending x) s
        let s2 := deliverEdge (inputNumber k) x.role direction (s.runTimeAt first) s1
        if x.window = 0 then writePending s2.now s2 k else s2
      else putInput k { x with qualifier := .steady, glitches := bump255 x.glitches } s
    else s
  | .steady => s
  | .window _ => s

/-- The window-end sample of BI(k+1) has been taken at this count (R39). -/
def windowDue (k : Fin 12) (s : State) : Bool :=
  match s.ci.inputs[k].qualifier with
  | .window endCount => endCount ≤ s.count && s.ci.nextSample = s.count + 100
  | .steady => false
  | .candidate _ _ => false

/-- R39, R40: the bounce of the window-end sample, against the raw sample before it. -/
def countLastBounce (x : ContactInput) : ContactInput :=
  { x with bounces := if x.history.newest ≠ x.history.middle then bump255 x.bounces else x.bounces }

/-- R40: the window end of BI(k+1), in R40's order: the bounce, the record, the recheck and its delivery. The record
written is that of the edge before; R47 and R183 put a delivery before the records of its own edge (log 38). -/
def endWindow (k : Fin 12) (s00 : State) : State :=
  let s0 := putInput k (countLastBounce s00.ci.inputs[k]) s00
  let s := writePending s0.now s0 k
  let x := s.ci.inputs[k]
  let level := presentMajority x.polarity x.history
  if level = x.settled then putInput k { x with qualifier := .steady } s
  else
    let direction := Direction.ofLevel level
    let pending := pendingFor s direction s.count true x.glitches false
    let s1 := putInput k (afterEdge s.count pending x) s
    deliverEdge (inputNumber k) x.role direction s.now s1

/-- R42: the edge of an INJECT that changes the level, at the request instant. Its edge time right after a run
start with an earlier T0 is the model's choice (log 33). -/
def injectEdge (k : Fin 12) (level : Bool) (s : State) : State :=
  let x := s.ci.inputs[k]
  if level = x.settled then s
  else
    let direction := Direction.ofLevel level
    let pending := pendingFor s direction s.count false 0 true
    let s1 := putInput k { x with settled := level, pendingEdge := pending } s
    let s2 := deliverEdge (inputNumber k) x.role direction s.now s1
    writePending s2.now s2 k

/-! ### SYNC IN (R49, R50) -/

/-- The SYNC IN edge of an ACTIVE direction: its pending record stands while it is delivered, so that a run it
starts or ends holds it (R47, R50; log 16). -/
def deliverSync (first : Nat) (noise : Bool) (glitches : Nat) (s0 : State) : State :=
  let edgeTime := s0.runTimeAt first
  let s1 := putSync { s0.ci.sync with pendingEdge := some ⟨.active, edgeTime, noise, glitches, false⟩ } s0
  let s2 := handSync first edgeTime s1
  let s3 := if s2.inRun then writePendingSync s2.now s2 else s2
  putSync { s3.ci.sync with pendingEdge := none } s3

/-- R49: the third candidate sample of SYNC IN. -/
def qualifySync (s : State) : State :=
  let x := s.ci.sync
  match x.qualifier with
  | .candidate first samples =>
    if samples.length = 3 then
      let n := differing x.settled samples
      if 2 ≤ n then
        let s1 := putSync { x with settled := !x.settled, glitches := 0, qualifier := .steady } s
        if x.settled then s1 else deliverSync first (n = 2) x.glitches s1
      else putSync { x with qualifier := .steady, glitches := bump255 x.glitches } s
    else s
  | .steady => s
  | .window _ => s

/-- BI(k+1) of an input number, none for SYNC IN. -/
def contactOf (input : Fin 13) : Option (Fin 12) :=
  if h : input = 0 then none else some (input.pred h)

/-- The qualification of BI(k+1) that is due gives an ACTIVE edge. -/
def qualifiesActive (k : Fin 12) (s : State) : Bool :=
  let x := s.ci.inputs[k]
  match x.qualifier with
  | .candidate _ samples => samples.length = 3 && !x.settled && 2 ≤ differing x.settled samples
  | .steady => false
  | .window _ => false

/-- R37, R49: QUALIFICATION of an input, after sample 0 where R117 has it come first. -/
def qualify (input : Fin 13) (s : State) : State :=
  match contactOf input with
  | some k => qualifyInput k (firstSampleFirst k (qualifiesActive k s) s)
  | none => qualifySync s

/-- Three candidate samples stand judged by none. -/
def Qualifier.ripe : Qualifier → Bool
  | .candidate _ samples => samples.length = 3
  | .steady => false
  | .window _ => false

/-- A qualification of the input is due. -/
def qualificationDue (input : Fin 13) (s : State) : Bool :=
  match contactOf input with
  | some k => s.ci.inputs[k].qualifier.ripe
  | none => s.ci.sync.qualifier.ripe

/-- A window end of the input is due. -/
def windowEndDue (input : Fin 13) (s : State) : Bool :=
  match contactOf input with
  | some k => windowDue k s
  | none => false

/-- The window end of BI(k+1) that is due gives an ACTIVE recheck edge. -/
def rechecksActive (k : Fin 12) (s : State) : Bool :=
  let x := s.ci.inputs[k]
  windowDue k s && !x.settled && presentMajority x.polarity x.history

/-- R40: WINDOW_END of an input, after sample 0 where R117 has it come first. -/
def windowEnd (input : Fin 13) (s : State) : State :=
  match contactOf input with
  | some k => if windowDue k s then endWindow k (firstSampleFirst k (rechecksActive k s) s) else s
  | none => s

/-! ### Decrement to zero (R156) -/

/-- An ACTIVE edge of BI(k+1), delivered now, decrements counter c from 1 to 0. It is judged after a sample 0 that
comes first (R117). -/
def edgeZeroes (c : Fin 4) (k : Fin 12) (s0 : State) : Bool :=
  let s := firstSampleFirst k true s0
  let role := s.ci.inputs[k].role
  s.inRun && (zeroedBy (.edge (inputNumber k)) s c ||
    (zeroedBy .tripAccepted s c && tripsSome role.tripPoles s.bs) ||
    (zeroedBy .closeAccepted s c && role = .close && closeVerdict s.bs = .accepted))

/-- The entry at this grid instant decrements counter c from 1 to 0 (R154, steps 3 and 4). -/
def entryZeroes (c : Fin 4) (s : State) : Bool :=
  sampleDue s && match entryDue s with
    | some n => match s.st.entries[n] with
      | some e => s.st.sources[c] = .entry n && (e.loads[c]).getD s.sq.counters[c] = 1
      | none => false
    | none => false

end Sys2Proof.Machine
end

