-- ==== Sys2Proof/Machine/TimeBaseOps.lean ====
section
/-! DEFINITION. The time base (02_time_base.md): PPS edges (R17, R20), internal marks (R18), LOCKED and HOLDOVER
(R21, R22), the calibration (R23 to R29) and the TIME records (R32). The order of the effects of one mark is
log 11: EPOCH_SET, the pulse or internal run and the state changes, the hand-over to the sequencer, E. -/

namespace Sys2Proof.Machine

/-- The time base takes a value. -/
def putTb (x : TimeBase) (s : State) : State := { s with tb := x }

/-- R32: one TIME record at a count, without its notice. -/
def timeRecord (count : Nat) (event : TimeEvent) (correction : Option Int) (second : Option Nat) (s : State) :
    State :=
  offerAt count (.time event correction second) s

/-- R32: one TIME record at a count and its TIMEBASE notice. -/
def timeEvent (count : Nat) (event : TimeEvent) (correction : Option Int) (second : Option Nat) (s : State) :
    State :=
  raiseNotice .timebase (timeRecord count event correction second s)

/-! ### Marks -/

/-- R16: the count lies inside the acceptance window of the previous mark. -/
def TimeBase.inWindow (tb : TimeBase) (count : Nat) : Bool :=
  match tb.prevMark with
  | some p => p + tb.interval ≤ count + 5000 && count ≤ p + tb.interval + 5000
  | none => false

/-- R17: the edge is accepted where no second is armed: inside the window, or before the first mark. -/
def TimeBase.accepts (tb : TimeBase) (count : Nat) : Bool := tb.prevMark.isNone || tb.inWindow count

/-- R19. -/
def nextSecond (second : Nat) : Nat := if second = topNumber then 0 else second + 1

/-- R17, R19: the fields an accepted pulse sets. -/
def TimeBase.pulse (count second : Nat) (tb : TimeBase) : TimeBase :=
  { tb with prevMark := some count, second := second, internalRun := 0, pulseRun := min 2 (tb.pulseRun + 1) }

/-- R20: the fields a realigning mark sets. -/
def TimeBase.realign (count second : Nat) (tb : TimeBase) : TimeBase :=
  { tb with prevMark := some count, second := second, internalRun := 0, pulseRun := 1 }

/-- R18, R19: the fields an internal mark at `count` sets. -/
def TimeBase.internal (count : Nat) (tb : TimeBase) : TimeBase :=
  { tb with
    prevMark := some count, second := nextSecond tb.second, pulseRun := 0
    internalRun := min 2 (tb.internalRun + 1) }

/-- R19, R16: the mark is handed to the sequencer, then E is computed. -/
def endMark (markCount : Nat) (internal : Bool) (s0 : State) : State :=
  let s := handMark markCount internal s0
  putTb { s.tb with interval := expectedInterval s.tb.c } s

/-! ### Calibration -/

/-- R27: the calibration fails at a mark or edge of this count, and the state becomes `next`. -/
def failCalibration (count : Nat) (x : Calibration) (next : TbState) (s0 : State) : State :=
  let s1 := timeRecord count .calFailed none none (putTb { s0.tb with cal := none, state := next } s0)
  let s2 :=
    if x.prior = .locked ∧ next = .holdover then timeRecord count .holdover none (some s1.tb.second) s1 else s1
  raiseNotice .timebase s2

/-- R27: the state after a failure by an internal mark. -/
def afterInternal : TbState → TbState
  | .free => .free
  | .calibrating => .holdover
  | .locked => .holdover
  | .holdover => .holdover

/-- R25: the result lies within −100,000..+100,000 ppb. -/
def inCorrectionRange (c : Int) : Bool := -100000 ≤ c && c ≤ 100000

/-- R151: a calibration that finishes in ARMED is noted, for the start of the run that is armed (log 10). -/
def holdResult (s : State) : State :=
  { s with sq := { s.sq with resultHeld := s.sq.resultHeld || s.sq.state = .armed } }

/-- R28: a result is adopted according to the sequencer state. -/
def adoptResult (c : Int) (s : State) : State :=
  if s.sq.state = .idle then putTb { s.tb with c := c, pendingC := none } s
  else putTb { s.tb with pendingC := some c } (holdResult s)

/-- R25: the closing pulse at `count`, over the calibration's K seconds. -/
def finishCalibration (count : Nat) (x : Calibration) (opening : Nat) (s0 : State) : State :=
  let result := calibrated x.k (count - opening)
  if inCorrectionRange result then
    timeEvent count .calDone (some result) none
      (adoptResult result (putTb { s0.tb with cal := none, state := .locked } s0))
  else timeEvent count .calRejected (some result) none (putTb { s0.tb with cal := none, state := x.prior } s0)

/-- R24: an accepted pulse at `count` in a calibration. -/
def calibrationPulse (count : Nat) (x : Calibration) (s : State) : State :=
  match x.phase with
  | .waiting => putTb { s.tb with cal := some { x with phase := .counting count } } s
  | .counting opening =>
    if x.pulses + 1 = x.k then finishCalibration count x opening s
    else putTb { s.tb with cal := some { x with pulses := x.pulses + 1 } } s

/-- R24, R27: a realigning mark at `count` opens a waiting calibration and fails a counting one. -/
def calibrationRealign (count : Nat) (x : Calibration) (s : State) : State :=
  match x.phase with
  | .waiting => calibrationPulse count x s
  | .counting _ => failCalibration count x x.prior s

/-! ### PPS edges -/

/-- R22, R24, R25: what an accepted pulse does beyond its mark, in the state it found. -/
def acceptPulse (count second : Nat) (s0 : State) : State :=
  let s := putTb (s0.tb.pulse count second) s0
  match s.tb.state, s.tb.cal with
  | .calibrating, some x => calibrationPulse count x s
  | .holdover, _ =>
    if s.tb.pulseRun = 2 then timeEvent count .relocked none (some second) (putTb { s.tb with state := .locked } s)
    else s
  | _, _ => s

/-- R17, R27: a rejected edge. -/
def rejectEdge (s0 : State) : State :=
  let s := putTb { s0.tb with pulseRun := 0 } s0
  match s.tb.state, s.tb.cal with
  | .calibrating, some x => failCalibration s.count x x.prior s
  | _, _ => s

/-- R20, R27: a realigning mark. -/
def realignMark (count second : Nat) (s0 : State) : State :=
  let s := putTb (s0.tb.realign count second) s0
  match s.tb.state, s.tb.cal with
  | .calibrating, some x => calibrationRealign count x s
  | _, _ => s

/-- R20: the edge taken under an armed second. -/
def armedEdge (n : Nat) (s0 : State) : State :=
  let set (x : TimeBase) : TimeBase := { x with second := n, epoch := true, armedSecond := none }
  let accepted := s0.tb.accepts s0.count
  let placed := { set s0.tb with prevMark := some s0.count }
  let s1 := timeEvent s0.count .epochSet none (some n) (putTb placed s0)
  endMark s1.count false (if accepted then acceptPulse s1.count n s1 else realignMark s1.count n s1)

/-- R17: a rising edge of the PPS input at the present count. -/
def ppsEdge (s : State) : State :=
  match s.tb.armedSecond with
  | some n => armedEdge n s
  | none =>
    if s.tb.accepts s.count then endMark s.count false (acceptPulse s.count (nextSecond s.tb.second) s)
    else rejectEdge s

/-- The closing pulse is due: an accepted pulse at this count brings the pulses counted to K (R24). -/
def closingPulseDue (s : State) : Bool :=
  s.tb.accepts s.count && s.tb.state = .calibrating && match s.tb.cal with
    | some x => match x.phase with
      | .counting _ => x.pulses + 1 = x.k
      | .waiting => false
    | none => false

/-! ### Internal marks -/

/-- The acceptance window closes at the present count (R16). -/
def internalMarkDue (s : State) : Bool :=
  match s.tb.prevMark with
  | some p => s.count = p + s.tb.interval + 5001
  | none => false

/-- R18, R21, R27: the internal mark at count `mark`. -/
def placeInternal (mark : Nat) (s0 : State) : State :=
  let s := putTb (s0.tb.internal mark) s0
  match s.tb.state, s.tb.cal with
  | .calibrating, some x => failCalibration mark x (afterInternal x.prior) s
  | .locked, _ =>
    if s.tb.internalRun = 2 then
      timeEvent mark .holdover none (some s.tb.second) (putTb { s.tb with state := .holdover } s)
    else s
  | _, _ => s

/-- R18: the closing of the acceptance window. -/
def internalMark (s : State) : State :=
  match s.tb.prevMark with
  | some p => endMark (p + s.tb.interval) true (placeInternal (p + s.tb.interval) s)
  | none => s

end Sys2Proof.Machine
end

