-- ==== Sys2Proof/Machine/RequestOps.lean ====
section
/-! DEFINITION. The owners' part of every request (R6): its checks in the order its chapter lists them, its
clamps, its effect at the request instant and its answer. A request refused by a check changes nothing, but for
the GO that finds no room (R150). -/

namespace Sys2Proof.Machine

/-- What an owner answers: the status and the kind's answer body (R203). -/
structure Reply where
  status : Status
  payload : List Byte
  deriving DecidableEq, Repr

/-- R6: a refusal, with no effect and no further body. -/
def refuse (status : Status) (s : State) : Reply × State := (⟨status, []⟩, s)

/-- A request carried out, with its answer body. -/
def carried (status : Status) (payload : List Byte) (s : State) : Reply × State := (⟨status, payload⟩, s)

/-- R6: CLAMPED where a field was limited, else OK. -/
def clampStatus (clamped : Bool) : Status := if clamped then .clamped else .ok

/-! ### Control link (R12, R13) -/

def requestIdent (s : State) : Reply × State := carried .ok (leBytes 2 620 ++ byteOf 1) s

def requestStatus (s : State) : Reply × State := carried .ok s.snapshot.bytes s

/-- R13: the answer; the reset follows when it has been sent. -/
def requestReset (s : State) : Reply × State := carried .ok [] s

/-! ### Waveform synthesis (R53) -/

def channelSettings (limit gain offset : Half) : ChannelSettings :=
  { limit := clampNat 1 32767 limit.toNat
    gain := clampNat 28672 36864 gain.toNat
    offset := clampInt (-2048) 2047 offset.toInt }

def settingsClamped (limit gain offset : Half) : Bool :=
  let x := channelSettings limit gain offset
  x.limit ≠ limit.toNat || x.gain ≠ gain.toNat || x.offset ≠ offset.toInt

/-- The mode of a channel: only IE can be RESIDUAL (R52). -/
def channelMode (ieMode : IeMode) (ch : Fin 8) : IeMode := if ch = 7 then ieMode else .independent

/-- R53: the read-back of a channel. -/
def channelReadback (ch : Fin 8) (ws : Synthesis) : List Byte :=
  byteOf ch.val ++ leBytes 2 ws.settings[ch].limit ++ leBytes 2 ws.settings[ch].gain ++
    leSigned 2 ws.settings[ch].offset ++ byteOf (channelMode ws.ieMode ch).code

def setChannel (ch : Fin 8) (x : ChannelSettings) (residual : Bool) (s : State) : State :=
  { s with ws := { s.ws with
      settings := s.ws.settings.set ch x
      ieMode := if ch = 7 then (if residual then .residual else .independent) else s.ws.ieMode } }

def requestChanset (channel : Byte) (limit gain offset : Half) (mode : Byte) (s : State) : Reply × State :=
  if 7 < channel.toNat then refuse .range s
  else match twoValued mode.toNat with
  | none => refuse .range s
  | some residual =>
    if residual ∧ channel.toNat ≠ 7 then refuse .range s
    else if s.sq.state ≠ .idle then refuse .busy s
    else
      let ch := Fin.ofNat 8 channel.toNat
      let s' := setChannel ch (channelSettings limit gain offset) residual s
      carried (clampStatus (settingsClamped limit gain offset)) (channelReadback ch s'.ws) s'

/-! ### Contact inputs (R35, R42) -/

/-- BI(k+1) of an input byte, none outside 1..12. -/
def inputOfCode (input : Byte) : Option (Fin 12) :=
  if 1 ≤ input.toNat ∧ input.toNat ≤ 12 then some (Fin.ofNat 12 (input.toNat - 1)) else none

/-- R35: the input after INSET. -/
def resetInput (mode : InputMode) (polarity : Polarity) (role : Role) (window : Nat) (x : ContactInput) :
    ContactInput :=
  { mode := mode
    polarity := polarity
    role := role
    window := window
    history := x.history
    settled := match mode with
      | .contact => presentMajority polarity x.history
      | .off => false
      | .injected => false
    qualifier := .steady
    glitches := 0
    bounces := 0
    pendingEdge := none }

def requestInset (input mode polarity role : Byte) (window : Half) (s : State) : Reply × State :=
  match inputOfCode input with
  | none => refuse .range s
  | some k =>
    match InputMode.ofCode mode.toNat, Polarity.ofCode polarity.toNat, Role.ofCode role.toNat with
    | some m, some p, some r =>
      if s.sq.state ≠ .idle then refuse .busy s
      else
        let w := clampNat 0 25000 window.toNat
        carried (clampStatus (w ≠ window.toNat)) [] (putInput k (resetInput m p r w s.ci.inputs[k]) s)
    | _, _, _ => refuse .range s

def requestInject (input level : Byte) (s : State) : Reply × State :=
  match inputOfCode input with
  | none => refuse .range s
  | some k =>
    match twoValued level.toNat with
    | none => refuse .range s
    | some active =>
      if s.ci.inputs[k].mode ≠ .injected then refuse .order s
      else carried .ok [] (injectEdge k active (firstSampleFirst k (active && !s.ci.inputs[k].settled) s))

/-! ### Amplifier link (R84, R86) -/

/-- The counts and episodes cleared and the receiver waiting for 5Ah (R84, R86, R206). -/
def AmpGroup.clearCounts (x : AmpGroup) : AmpGroup :=
  { x.clearOverload with outstanding := none, acked := 0, missed := 0, receiver := [] }

/-- R84, R206: in OFF the group begins to settle. In every other state AMPON drops a partial acknowledgment (R206) and
changes nothing else (R84; log 20). -/
def AmpGroup.turnOn (x : AmpGroup) : AmpGroup :=
  match x.state with
  | .off => { x.clearCounts with state := .settling, frameNumber := 255 }
  | .settling => { x with receiver := [] }
  | .ready => { x with receiver := [] }
  | .fault => { x with receiver := [] }

/-- R86. -/
def AmpGroup.turnOff (x : AmpGroup) : AmpGroup := { x.clearCounts with state := .off }

def groupReadback (g : Group) (s : State) : List Byte := byteOf (groupCode g) ++ byteOf (s.al.get g).state.code

def requestAmpon (group : Byte) (s : State) : Reply × State :=
  match groupOfCode group.toNat with
  | none => refuse .range s
  | some g =>
    let s' := putGroup g (s.al.get g).turnOn s
    carried .ok (groupReadback g s') s'

def requestAmpoff (group : Byte) (s : State) : Reply × State :=
  match groupOfCode group.toNat with
  | none => refuse .range s
  | some g =>
    if s.sq.state ≠ .idle then refuse .busy s
    else
      let s' := putGroup g (s.al.get g).turnOff s
      carried .ok (groupReadback g s') s'

/-! ### Breaker simulator (R93, R94) -/

/-- The settings of a BRKSET body in range; a code is 0 for the first value of its field. -/
def breakerSettings (openA openB openC close arcing charge discrepancy : Word) (side : Bool) (openAmp : Half)
    (posA posB posC spring : Bool) : BreakerSettings :=
  { opening := ⟨clampNat 0 500000 openA.toNat, clampNat 0 500000 openB.toNat, clampNat 0 500000 openC.toNat⟩
    closing := clampNat 0 1000000 close.toNat
    arcing := clampNat 1000 100000 arcing.toNat
    charge := clampNat 0 60000000 charge.toNat
    discrepancy := clampDiscrepancy discrepancy
    side := if side then .line else .bus
    openAmp := clampNat 0 32767 openAmp.toNat
    initialClosed := ⟨!posA, !posB, !posC⟩
    initialCharged := !spring }

/-- A quantity was limited (R93). -/
def breakerClamped (openA openB openC close arcing charge discrepancy : Word) (openAmp : Half)
    (x : BreakerSettings) : Bool :=
  x.opening.a ≠ openA.toNat || x.opening.b ≠ openB.toNat || x.opening.c ≠ openC.toNat ||
    x.closing ≠ close.toNat || x.arcing ≠ arcing.toNat || x.charge ≠ charge.toNat ||
    x.discrepancy ≠ discrepancy.toNat || x.openAmp ≠ openAmp.toNat

/-- R93: the read-back, in the layout of the request body. -/
def breakerReadback (x : BreakerSettings) : List Byte :=
  leBytes 4 x.opening.a ++ leBytes 4 x.opening.b ++ leBytes 4 x.opening.c ++ leBytes 4 x.closing ++
    leBytes 4 x.arcing ++ leBytes 4 x.charge ++ leBytes 4 x.discrepancy ++ byteOf x.side.code ++
    leBytes 2 x.openAmp ++ byteOf (boolCode (!x.initialClosed.a)) ++ byteOf (boolCode (!x.initialClosed.b)) ++
    byteOf (boolCode (!x.initialClosed.c)) ++ byteOf (boolCode (!x.initialCharged))

/-- R94: the settings take force, with the initial positions and spring, and the outputs follow. -/
def setBreaker (x : BreakerSettings) (s : State) : State :=
  refreshOutputs s.inRun (applyInitial { s with bs := { s.bs with settings := x } })

def requestBrkset (openA openB openC close arcing charge discrepancy : Word) (side : Byte) (openAmp : Half)
    (posA posB posC spring : Byte) (s : State) : Reply × State :=
  match twoValued side.toNat, twoValued posA.toNat, twoValued posB.toNat, twoValued posC.toNat,
      twoValued spring.toNat with
  | some line, some a, some b, some c, some charging =>
    if s.sq.state ≠ .idle then refuse .busy s
    else
      let x := breakerSettings openA openB openC close arcing charge discrepancy line openAmp a b c charging
      carried (clampStatus (breakerClamped openA openB openC close arcing charge discrepancy openAmp x))
        (breakerReadback x) (setBreaker x s)
  | _, _, _, _, _ => refuse .range s

/-! ### Binary outputs (R122) -/

/-- BO(k+1) of an output byte, none outside 1..8. -/
def outputOfCode (output : Byte) : Option (Fin 8) :=
  if 1 ≤ output.toNat ∧ output.toNat ≤ 8 then some (Fin.ofNat 8 (output.toNat - 1)) else none

/-- R122: the source and bit number take force, and the outputs follow. -/
def setOutput (k : Fin 8) (source : OutSource) (bit : Fin 8) (s : State) : State :=
  refreshOutputs s.inRun { s with bo := { s.bo with
    sources := s.bo.sources.set k source
    bits := s.bo.bits.set k bit } }

def outputReadback (k : Fin 8) (bo : BinaryOutputs) : List Byte :=
  byteOf (k.val + 1) ++ byteOf bo.sources[k].code ++ byteOf bo.bits[k].val ++ byteOf (boolCode bo.outputs[k])

def requestOutset (output source bit : Byte) (s : State) : Reply × State :=
  match outputOfCode output with
  | none => refuse .range s
  | some k =>
    match OutSource.ofCode source.toNat with
    | none => refuse .range s
    | some x =>
      if x = .stateBit ∧ 7 < bit.toNat then refuse .range s
      else if s.sq.state ≠ .idle then refuse .busy s
      else
        let s' := setOutput k x (if x = .stateBit then Fin.ofNat 8 bit.toNat else 0) s
        carried .ok (outputReadback k s'.bo) s'

/-! ### State table (R135 to R143) -/

/-- R139: the sequencer holds entry n. -/
def entryInUse (n : Fin 24) (q : Sequencer) : Bool :=
  let first := match q.settings with
    | some r => r.first = n
    | none => false
  let held := q.current = some n || match q.taken with
    | some x => x.target = .state n
    | none => false
  match q.state with
  | .idle => false
  | .armed => first
  | .gap => first
  | .running => held
  | .pointing => held

def putEntry (n : Fin 24) (e : Option Entry) (s : State) : State :=
  { s with st := { s.st with entries := s.st.entries.set n e } }

/-- The entry of an index byte, none above 23. -/
def entryOfCode (index : Byte) : Option (Fin 24) :=
  if index.toNat ≤ 23 then some (Fin.ofNat 24 index.toNat) else none

def requestStwrite (body : List Byte) (s : State) : Reply × State :=
  match entryOfCode (byteAt body 0) with
  | none => refuse .range s
  | some n =>
    if entryChecksOk body = false then refuse .range s
    else if entryInUse n s.sq then refuse .active s
    else carried (clampStatus (entryClamped body)) (byteOf n.val) (putEntry n (some (readEntry body)) s)

def requestStread (index : Byte) (s : State) : Reply × State :=
  match entryOfCode index with
  | none => refuse .range s
  | some n =>
    match s.st.entries[n] with
    | none => refuse .empty s
    | some e => carried .ok (e.bytes index) s

def requestStclear (index : Byte) (s : State) : Reply × State :=
  match entryOfCode index with
  | none => refuse .range s
  | some n => if entryInUse n s.sq then refuse .active s else carried .ok [] (putEntry n none s)

def setSource (c : Fin 4) (x : CounterSource) (s : State) : State :=
  { s with st := { s.st with sources := s.st.sources.set c x } }

/-- R143: the read-back of a counter's source. -/
def sourceReadback (c : Fin 4) (x : CounterSource) : List Byte :=
  byteOf c.val ++ byteOf x.code.1 ++ byteOf x.code.2

def requestCntset (counter source parameter : Byte) (s : State) : Reply × State :=
  if 3 < counter.toNat then refuse .range s
  else match CounterSource.ofCode source.toNat parameter.toNat with
  | none => refuse .range s
  | some x =>
    if s.sq.state ≠ .idle then refuse .busy s
    else
      let c := Fin.ofNat 4 counter.toNat
      carried .ok (sourceReadback c x) (setSource c x s)

/-! ### Sequencer (R146, R147, R163, R164) -/

/-- R147: the settings a RUN stores, in range. -/
def runSettings (mode : RunMode) (repeats : Half) (gap : Word) (trigger : RunTrigger) (second : Word)
    (first : Fin 24) (frequency : Word) (action : OverloadAction) : RunSettings :=
  { mode := mode
    repeats := if mode = .repeated then clampNat 2 1000 repeats.toNat else repeats.toNat
    gap := if mode = .repeated then clampNat 0 60000000 gap.toNat else gap.toNat
    trigger := trigger
    second := second.toNat
    first := first
    frequency := clampNat 40000 70000 frequency.toNat
    action := action }

def runClamped (repeats : Half) (gap frequency : Word) (r : RunSettings) : Bool :=
  r.repeats ≠ repeats.toNat || r.gap ≠ gap.toNat || r.frequency ≠ frequency.toNat

/-- R147. -/
def initialRemainder (r : RunSettings) : Nat :=
  match r.mode with
  | .repeated => r.repeats
  | .single => 1
  | .triggered => 0

/-- R147: the run starts at once, or the sequencer becomes ARMED. -/
def acceptRun (r : RunSettings) (s0 : State) : State :=
  let s := { s0 with sq := { s0.sq with
    settings := some r, remainder := initialRemainder r, resultHeld := false } }
  if r.trigger = .immediate then startRun s.count false s
  else { s with sq := { s.sq with state := .armed } }

/-- R146, check 5. -/
def bothReady (s : State) : Bool := s.al.v.state = .ready && s.al.i.state = .ready

/-- R146, checks 4 to 9; none where they all pass. -/
def runRefusal (r : RunSettings) (s : State) : Option Status :=
  if s.sq.state ≠ .idle then some .busy
  else if bothReady s = false then some .notReady
  else if (s.st.entries[r.first]).isNone then some .empty
  else if s.freePlaces < 2 then some .noRoom
  else if r.trigger = .atSecond ∧ s.tb.epoch = false then some .noTime
  else if r.trigger = .atSecond ∧ r.second ≤ s.tb.second then some .range
  else none

/-- R146, check 3: the combination of mode and trigger is allowed. -/
def triggerAllowed (mode : RunMode) (trigger : RunTrigger) : Bool :=
  mode ≠ .triggered || (trigger ≠ .atSecond && trigger ≠ .immediate)

def requestRun (mode : Byte) (repeats : Half) (gap : Word) (trigger : Byte) (second : Word) (first : Byte)
    (frequency : Word) (action : Byte) (s : State) : Reply × State :=
  match RunMode.ofCode mode.toNat, RunTrigger.ofCode trigger.toNat, OverloadAction.ofCode action.toNat,
      entryOfCode first with
  | some m, some t, some a, some n =>
    if triggerAllowed m t = false then refuse .range s
    else
      let r := runSettings m repeats gap t second n frequency a
      match runRefusal r s with
      | some status => refuse status s
      | none =>
        let s' := acceptRun r s
        carried (clampStatus (runClamped repeats gap frequency r)) (byteOf s'.sq.state.code) s'
  | _, _, _, _ => refuse .range s

def requestHalt (s : State) : Reply × State :=
  match s.sq.state with
  | .idle => refuse .order s
  | .armed => carried .ok [] (toIdle s)
  | .gap => carried .ok [] (toIdle s)
  | .running => carried .ok [] (runEnd .halted s)
  | .pointing => carried .ok [] (runEnd .halted s)

/-- The armed run waits for a GO. -/
def Sequencer.awaitsGo (q : Sequencer) : Bool :=
  match q.settings with
  | some r => r.trigger = .go
  | none => false

/-- R163; the GO without room is R150's. -/
def requestGo (s : State) : Reply × State :=
  match s.sq.state with
  | .idle => refuse .order s
  | .gap => refuse .order s
  | .pointing => refuse .order s
  | .armed =>
    if s.sq.awaitsGo = false then refuse .order s
    else if 2 ≤ s.freePlaces then carried .ok [] (startRun s.count false s)
    else refuse .noRoom (endWait s)
  | .running => carried .ok [] (judgeEvent (eventMatches .go fun _ => false) s.now s)

/-! ### Time base (R20, R23, R29) -/

/-- R23: the calibration record of a TCAL over k seconds; a restart keeps the prior state. -/
def startCalibration (k : Nat) (tb : TimeBase) : TimeBase :=
  let prior := match tb.state, tb.cal with
    | .calibrating, some x => x.prior
    | .calibrating, none => .free
    | .free, _ => .free
    | .locked, _ => .locked
    | .holdover, _ => .holdover
  { tb with state := .calibrating, cal := some ⟨k, prior, .waiting, 0⟩ }

def requestTcal (k : Byte) (s : State) : Reply × State :=
  let n := clampNat 1 64 k.toNat
  carried (clampStatus (n ≠ k.toNat)) [] (putTb (startCalibration n s.tb) s)

def requestTcalx (s : State) : Reply × State :=
  match s.tb.state, s.tb.cal with
  | .calibrating, some x => carried .ok [] (putTb { s.tb with cal := none, state := x.prior } s)
  | _, _ => refuse .order s

def requestTsec (n : Word) (s : State) : Reply × State :=
  carried .ok [] (putTb { s.tb with armedSecond := some n.toNat } s)

/-! ### Report store (R198, R200) -/

def takeReport (m : Nat) (s : State) : State := { s with rs := s.rs.takeOldest m }

def reportPayload (m : Nat) (taken : List Record) (after : ReportStore) : List Byte :=
  byteOf m ++ leBytes 2 after.records.length ++ leBytes 4 (shownNextSeq after).toNat ++
    (taken.map Record.bytes).flatten

def requestRepread (n : Byte) (s : State) : Reply × State :=
  let clamped := clampNat 1 24 n.toNat
  let m := min clamped s.fill
  let s' := takeReport m s
  carried (clampStatus (clamped ≠ n.toNat)) (reportPayload m (s.rs.records.take m) s'.rs) s'

/-! ### All requests -/

/-- R6: a request taken into service is checked and carried out. -/
def carryOut (r : Request) (s : State) : Reply × State :=
  match r with
  | .ident => requestIdent s
  | .status => requestStatus s
  | .reset => requestReset s
  | .chanset channel limit gain offset mode => requestChanset channel limit gain offset mode s
  | .inset input mode polarity role window => requestInset input mode polarity role window s
  | .inject input level => requestInject input level s
  | .ampon group => requestAmpon group s
  | .ampoff group => requestAmpoff group s
  | .brkset openA openB openC close arcing charge discrepancy side openAmp posA posB posC spring =>
    requestBrkset openA openB openC close arcing charge discrepancy side openAmp posA posB posC spring s
  | .outset output source bit => requestOutset output source bit s
  | .stwrite body => requestStwrite body s
  | .stread index => requestStread index s
  | .stclear index => requestStclear index s
  | .cntset counter source parameter => requestCntset counter source parameter s
  | .run mode repeats gap trigger second first frequency action =>
    requestRun mode repeats gap trigger second first frequency action s
  | .halt => requestHalt s
  | .go => requestGo s
  | .tcal k => requestTcal k s
  | .tcalx => requestTcalx s
  | .tsec n => requestTsec n s
  | .repread n => requestRepread n s
  | .unknownKind _ => refuse .unknown s
  | .wrongLength _ => refuse .length s

end Sys2Proof.Machine
end

