-- ==== Sys2Proof/Machine/LinkOps.lean ====
section
/-! DEFINITION. The control link (01_control_link.md): the request slot (R4, R5), the receiver (R2, R3), the end
of a sent frame (R8) and the resets (R13, R14 and the reset rules of every chapter). -/

namespace Sys2Proof.Machine

/-- The control link takes a value. -/
def putCl (x : ControlLink) (s : State) : State := { s with cl := x }

/-! ### The request slot -/

/-- R8: an answer joins the tail of the answer queue. -/
def pushAnswer (a : Answer) (s : State) : State := putCl { s.cl with answers := s.cl.answers ++ [a] } s

/-- The answer of a request in service. -/
def serviceAnswer (h : HeldRequest) (r : Reply) : Answer :=
  { requestKind := h.request.kind, tag := h.tag, status := r.status, payload := r.payload, fromService := true }

/-- R5. -/
def overrunAnswer (h : HeldRequest) : Answer :=
  { requestKind := h.request.kind, tag := h.tag, status := .overrun, payload := [], fromService := false }

/-- R4: a request is taken into service and carried out, and its answer becomes ready at once. -/
def serve (h : HeldRequest) (s : State) : State :=
  let done := carryOut h.request (putCl { s.cl with inService := some h } s)
  pushAnswer (serviceAnswer h done.1) done.2

/-- The OVERRUN answers in the queue. -/
def overrunCount (answers : List Answer) : Nat := (answers.filter fun a => !a.fromService).length

/-- R4, R5: a good frame's request goes into service, into the holding slot, or is refused; a ninth OVERRUN is
discarded. -/
def submit (h : HeldRequest) (s : State) : State :=
  match s.cl.inService with
  | none => serve h s
  | some _ =>
    match s.cl.holding with
    | none => putCl { s.cl with holding := some h } s
    | some _ => if overrunCount s.cl.answers < 8 then pushAnswer (overrunAnswer h) s else s

/-- The request of a good frame that completes now (R2, R6). -/
def submitFrame (kind tag : Byte) (body : List Byte) (s : State) : State :=
  submit ⟨tag, parseRequest kind body⟩ s

/-- A whole good frame received at once: the receiver ends in HUNT. A body above 1,024 bytes cannot stand in a
frame (R1) and is discarded (R3). -/
def receiveFrame (kind tag : Byte) (body : List Byte) (s0 : State) : State :=
  let s := putCl { s0.cl with receiver := .hunt } s0
  if body.length ≤ 1024 then submitFrame kind tag body s else s

/-! ### The receiver (R2, R3) -/

/-- The receiver takes a phase. -/
def putReceiver (r : Receiver) (s : State) : State := putCl { s.cl with receiver := r } s

/-- HEADER, after its last field: the length above 1,024 is discarded at its second byte. -/
def receiveHeader (fields : List Byte) : Receiver :=
  match fields with
  | [low, high] => if 1024 < leValue [low, high] then .hunt else .header fields
  | [low, high, kind, tag] =>
    if leValue [low, high] = 0 then .check kind tag [] none else .body (leValue [low, high]) kind tag []
  | _ => .header fields

/-- BODY: after the last body byte, CHECK. -/
def receiveBody (length : Nat) (kind tag : Byte) (got : List Byte) : Receiver :=
  if length ≤ got.length then .check kind tag got none else .body length kind tag got

/-- The check value received is the one computed (R1). -/
def goodCheck (kind tag : Byte) (body : List Byte) (low high : Byte) : Bool :=
  crc16 (frameCovered kind tag body) = BitVec.ofNat 16 (leValue [low, high])

/-- R2: one byte with a valid stop bit. -/
def receiveByte (b : Byte) (s : State) : State :=
  match s.cl.receiver with
  | .hunt => if b = 0xD1#8 then putReceiver .sync s else s
  | .sync =>
    if b = 0x2E#8 then putReceiver (.header []) s else if b = 0xD1#8 then s else putReceiver .hunt s
  | .header fields => putReceiver (receiveHeader (fields ++ [b])) s
  | .body length kind tag got => putReceiver (receiveBody length kind tag (got ++ [b])) s
  | .check kind tag body none => putReceiver (.check kind tag body (some b)) s
  | .check kind tag body (some low) =>
    if goodCheck kind tag body low b then submitFrame kind tag body (putReceiver .hunt s)
    else putReceiver .hunt s

/-- R3: more than 2,000 counts have passed since the last stop bit of the frame under way. -/
def gapPassed (startCount : Nat) (cl : ControlLink) : Bool :=
  cl.receiver ≠ .hunt && cl.lastStop + 2000 < startCount

/-- R2, R3: a byte whose start bit came at `startCount` and whose stop bit comes now. -/
def receiveLineByte (startCount : Nat) (b : Byte) (stopValid : Bool) (s0 : State) : State :=
  let s1 := if gapPassed startCount s0.cl then putReceiver .hunt s0 else s0
  let s2 := if stopValid then receiveByte b s1 else putReceiver .hunt s1
  putCl { s2.cl with lastStop := s0.count } s2

/-- R3: the inter-byte gap limit is passed at the present count. -/
def interByteGap (s : State) : State := if gapPassed s.count s.cl then putReceiver .hunt s else s

/-! ### Resets -/

/-- R51: the raw history is kept. -/
def ContactInput.requestReset (x : ContactInput) : ContactInput := { ContactInput.reset with history := x.history }

def SyncInput.requestReset (x : SyncInput) : SyncInput := { SyncInput.reset with history := x.history }

def ContactInputs.requestReset (ci : ContactInputs) : ContactInputs :=
  { inputs := .ofFn fun k => ci.inputs[k].requestReset, sync := ci.sync.requestReset, nextSample := ci.nextSample }

/-- R13, R14, R33, R51, R79, R92, R120, R129, R144, R171, R186, R201: the request reset takes effect. The lines,
the time base (but for the latch), the sampling grids and the receiver go on. -/
def requestResetNow (s : State) : State :=
  { count := s.count
    resetLine := s.resetLine
    contactLines := s.contactLines
    syncLine := s.syncLine
    cl := { ControlLink.reset with receiver := s.cl.receiver, lastStop := s.cl.lastStop }
    tb := { s.tb with latch := none }
    ci := s.ci.requestReset
    ws := { Synthesis.reset with nextGrid := s.ws.nextGrid, lastGrid := s.ws.lastGrid }
    al := .reset
    bs := .reset
    bo := .reset
    st := .reset
    sq := .reset
    asmt := .reset
    rs := .reset
    free := s.free
    pending := s.pending }

/-- A hardware reset, with the RESET line at a level: every block takes its hardware-reset values (log 22). -/
def hardwareReset (line : Bool) (s : State) : State :=
  { State.reset with
    resetLine := line
    contactLines := s.contactLines
    syncLine := s.syncLine
    free := s.free
    pending := s.pending }

/-! ### The end of a sent frame (R8, R13) -/

/-- The request in service is the request reset. -/
def servesReset (cl : ControlLink) : Bool :=
  match cl.inService with
  | some h => h.request = .reset
  | none => false

/-- R8: the request in service has been answered; the waiting one is taken. -/
def leaveService (s : State) : State :=
  match s.cl.holding with
  | none => putCl { s.cl with inService := none } s
  | some h => serve h (putCl { s.cl with inService := none, holding := none } s)

/-- R8, R10, R13: the last byte of the frame on the line has been sent, and the line is free. -/
def frameSent (s0 : State) : State :=
  match s0.cl.line with
  | none => s0
  | some x =>
    let s := putCl { s0.cl with line := none } s0
    match x.frame with
    | .notice _ => s
    | .answer a =>
      if a.fromService then if servesReset s.cl then requestResetNow s else leaveService s else s

end Sys2Proof.Machine
end

