-- ==== Sys2Proof/Machine/ContactCommands.lean ====
section
/-! DEFINITION. The meanings of the contact inputs' rows (chapter 3): CONTACT_SAMPLE, QUALIFICATION, WINDOW_END. -/

namespace Sys2Proof.Machine

/-- CONTACT_SAMPLE (R34, R37, R39). -/
def execContactSample (contacts : BitVec 12) (sync : Bool) (s : State) : Host.Outcome State Fault Refusal :=
  act (whenDue (contactSampleDue s) (takeContactSample contacts sync)) s

/-- QUALIFICATION (R37, R38, R49, R50). -/
def execQualification (input : Fin 13) (s : State) : Host.Outcome State Fault Refusal :=
  act (whenDue (qualificationDue input s) (qualify input)) s

/-- WINDOW_END (R40). -/
def execWindowEnd (input : Fin 13) (s : State) : Host.Outcome State Fault Refusal :=
  act (whenDue (windowEndDue input s) (windowEnd input)) s

end Sys2Proof.Machine
end

