-- ==== Sys2Proof/Machine/RunCommands.lean ====
section
/-! DEFINITION. The meanings of the sequencer's rows (chapter 9): RUN, HALT, GO, GAP_END, and the named events
AFTER_EXIT, GUARD_EXPIRY, LIMIT and DECREMENT_TO_ZERO, each the whole step in which the event happens (log 4). -/

namespace Sys2Proof.Machine

/-- RUN (R146, R147). -/
def execRun (tag mode : Byte) (repeats : Half) (gap : Word) (trigger : Byte) (second : Word) (first : Byte)
    (frequency : Word) (action : Byte) (s : State) : Host.Outcome State Fault Refusal :=
  act (submit ⟨tag, .run mode repeats gap trigger second first frequency action⟩) s

/-- HALT (R164). -/
def execHalt (tag : Byte) (s : State) : Host.Outcome State Fault Refusal := act (submit ⟨tag, .halt⟩) s

/-- GO (R163). -/
def execGo (tag : Byte) (s : State) : Host.Outcome State Fault Refusal := act (submit ⟨tag, .go⟩) s

/-- R170: the gap has ended by the present count. -/
def gapEndDue (s : State) : Bool :=
  s.sq.state = .gap && match s.sq.gapEnd with
    | some e => e ≤ s.count
    | none => false

/-- R170: the store and the groups are checked; the next run starts or the chain ends. -/
def gapEnd (s : State) : State :=
  if 2 ≤ s.freePlaces ∧ bothReady s then startRun s.count false s else endWait s

/-- GAP_END (R170). -/
def execGapEnd (s : State) : Host.Outcome State Fault Refusal := act (whenDue (gapEndDue s) gapEnd) s

/-- AFTER_EXIT (R158): the sample at which the AFTER exit of this index fires. -/
def execAfterExit (index : Fin 6) (s : State) : Host.Outcome State Fault Refusal :=
  act (whenDue (afterDue index s) gridInstant) s

/-- GUARD_EXPIRY (R160): the guard's expiry sample. -/
def execGuardExpiry (s : State) : Host.Outcome State Fault Refusal := act (whenDue (guardDue s) gridInstant) s

/-- LIMIT (R166): the grid instant whose place the run end LIMIT takes. -/
def execLimit (s : State) : Host.Outcome State Fault Refusal := act (whenDue (limitDue s) gridInstant) s

/-- The BI number, none for SYNC IN, meets a test. -/
def onContact (input : Fin 13) (test : Fin 12 → Bool) : Bool :=
  match contactOf input with
  | some k => test k
  | none => false

/-- R42: an INJECT taken now gives an ACTIVE edge of BI(k+1). -/
def injectsActive (level : Byte) (s : State) (k : Fin 12) : Bool :=
  s.cl.inService.isNone && s.ci.inputs[k].mode = .injected && level = 1#8 && !s.ci.inputs[k].settled

/-- R156: the event of this step, due now, decrements counter c from 1 to 0. -/
def decrementDue (c : Fin 4) (via : CountedStep) (s : State) : Bool :=
  match via with
  | .qualification input => onContact input fun k => qualifiesActive k s && edgeZeroes c k s
  | .windowEnd input => onContact input fun k => rechecksActive k s && edgeZeroes c k s
  | .inject tag input level =>
    match inputOfCode input with
    | some k =>
      injectsActive level s k &&
        edgeZeroes c k (putCl { s.cl with inService := some ⟨tag, .inject input level⟩ } s)
    | none => false
  | .gridInstant => gridDue s && entryZeroes c s

/-- The step of a counted event. -/
def countedStep (via : CountedStep) (s : State) : State :=
  match via with
  | .qualification input => qualify input s
  | .windowEnd input => windowEnd input s
  | .inject tag input level => submit ⟨tag, .inject input level⟩ s
  | .gridInstant => gridInstant s

/-- DECREMENT_TO_ZERO (R156, R157): the step whose event decrements the counter to zero. -/
def execDecrementToZero (counter : Fin 4) (via : CountedStep) (s : State) : Host.Outcome State Fault Refusal :=
  act (whenDue (decrementDue counter via s) (countedStep via)) s

end Sys2Proof.Machine
end

