-- ==== Sys2Proof/Machine/Clock.lean ====
section
/-! DEFINITION. The block's own clock: which events are due at the present count, which of several is taken
(free: log 2), and the passing of one oscillator count (R15). -/

namespace Sys2Proof.Machine

/-- R1, R202: the counts a frame of n bytes takes on the line, 100/3 counts a byte, rounded up (log 6). -/
def lineCounts (n : Nat) : Nat := (100 * n + 2) / 3

/-- The last byte of the frame on the line has been sent (R8). -/
def frameSentDue (s : State) : Bool :=
  match s.cl.line with
  | some x => x.start + lineCounts x.frame.byteCount ≤ s.count
  | none => false

/-- An event, if it is due. -/
def dueOne (due : Bool) (c : Instr) : List Instr := if due then [c] else []

/-- The events due at the present count. -/
def dueEvents (s : State) : List Instr :=
  dueOne (frameSentDue s) .frameSent ++
    dueOne (internalMarkDue s) .internalMark ++
    dueOne (contactSampleDue s) (.contactSample s.contactLines s.syncLine) ++
    (List.finRange 13).flatMap (fun n => dueOne (qualificationDue n s) (.qualification n)) ++
    (List.finRange 13).flatMap (fun n => dueOne (windowEndDue n s) (.windowEnd n)) ++
    dueOne (linkLossDue .v s) (.linkLost .v) ++
    dueOne (linkLossDue .i s) (.linkLost .i) ++
    dueOne (gridDue s) .gridInstant ++
    dueOne (gapEndDue s) .gapEnd

/-- The event taken now, and the state in which it is taken: of several, a free one (R4, R18, R35, R42, R48, R56,
R80, R140, R157, R160, R199). Nothing is due while the RESET line is asserted. An edge that commands
the breaker at the count of sample 0 is no exception to R117: its own step takes sample 0 first (log 43). -/
def nextDue (s : State) : Option (Instr × State) :=
  if s.resetLine then none
  else match dueEvents s with
  | [] => none
  | [c] => some (c, s)
  | c :: rest => some ((c :: rest).getD (Config.dueChoice s.free % (rest.length + 1)) c, { s with free := s.free + 1 })

/-- R15: the count increments by one; it is held at 0 while the RESET line is asserted. -/
def advanceCount (s : State) : State := if s.resetLine then s else { s with count := s.count + 1 }

end Sys2Proof.Machine
end

