-- ==== Sys2Proof/Machine/AmpCommands.lean ====
section
/-! DEFINITION. The meanings of the amplifier link's rows (chapter 5): ACKNOWLEDGMENT, ACKNOWLEDGMENT_BYTE, and
the named events SETTLING_COMPLETE, OVERLOAD_EVENT (the acknowledgment that brings each about) and LINK_LOST (the
fourth miss settled at a frame instant; log 4, log 15). -/

namespace Sys2Proof.Machine

/-- ACKNOWLEDGMENT (R81, R82, R85, R87, R88, R89). -/
def execAcknowledgment (group : Group) (number flags : Byte) (check : Half) (s : State) :
    Host.Outcome State Fault Refusal :=
  act (acknowledge group number flags check) s

/-- SETTLING_COMPLETE (R85). -/
def execSettlingComplete (group : Group) (number flags : Byte) (check : Half) (s : State) :
    Host.Outcome State Fault Refusal :=
  act (whenDue (settlingDue group number flags check s) (acknowledge group number flags check)) s

/-- OVERLOAD_EVENT (R88, R89). -/
def execOverloadEvent (group : Group) (channel : Fin 4) (number flags : Byte) (check : Half) (s : State) :
    Host.Outcome State Fault Refusal :=
  act (whenDue (overloadDue group channel number flags check s) (acknowledge group number flags check)) s

/-- LINK_LOST (R83, R87). -/
def execLinkLost (group : Group) (s : State) : Host.Outcome State Fault Refusal :=
  act (whenDue (linkLossDue group s) (settleMissed group)) s

/-- ACKNOWLEDGMENT_BYTE (R206). -/
def execAcknowledgmentByte (group : Group) (byte : Byte) (s : State) : Host.Outcome State Fault Refusal :=
  act (receiveAckByte group byte) s

end Sys2Proof.Machine
end

