-- ==== Sys2Proof/Machine/GridCommands.lean ====
section
/-! DEFINITION. The meanings of the rows of the sample grid: GRID_INSTANT (R54, R67, R80, R112), and the breaker
simulator's named expiries, each the whole grid instant at which the expiry happens (log 4). -/

namespace Sys2Proof.Machine

/-- GRID_INSTANT (R54, R67, R80). -/
def execGridInstant (s : State) : Host.Outcome State Fault Refusal := act (whenDue (gridDue s) gridInstant) s

/-- CONTACTS_PARTED (R102). -/
def execContactsParted (pole : Pole) (s : State) : Host.Outcome State Fault Refusal :=
  act (whenDue (partingDue pole s) gridInstant) s

/-- INTERRUPTED_FORCED (R104). -/
def execInterruptedForced (pole : Pole) (s : State) : Host.Outcome State Fault Refusal :=
  act (whenDue (forcingDue pole s) gridInstant) s

/-- CLOSING_EXPIRY (R108). -/
def execClosingExpiry (pole : Pole) (s : State) : Host.Outcome State Fault Refusal :=
  act (whenDue (closingDue pole s) gridInstant) s

/-- SPRING_CHARGED (R109). -/
def execSpringCharged (s : State) : Host.Outcome State Fault Refusal := act (whenDue (chargeDue s) gridInstant) s

/-- DISCREPANCY_TRIP (R111). -/
def execDiscrepancyTrip (s : State) : Host.Outcome State Fault Refusal :=
  act (whenDue (discrepancyDue s) gridInstant) s

end Sys2Proof.Machine
end

