-- ==== Sys2Proof/Machine/LinkCommands.lean ====
section
/-! DEFINITION. The meanings of the control link's rows: frames and bytes on the line, IDENT, STATUS, RESET
(chapter 1), and the hardware resets. A request's command is the arrival of its good frame (log 8). -/

namespace Sys2Proof.Machine

/-- FRAME_RECEIVED (R2, R4, R5, R6). -/
def execFrameReceived (kind tag : Byte) (body : List Byte) (s : State) : Host.Outcome State Fault Refusal :=
  act (receiveFrame kind tag body) s

/-- INTER_BYTE_GAP (R3); not due while the limit is not passed. -/
def execInterByteGap (s : State) : Host.Outcome State Fault Refusal := act interByteGap s

/-- FRAME_SENT (R8, R10, R13). -/
def execFrameSent (s : State) : Host.Outcome State Fault Refusal := act frameSent s

/-- BYTE_RECEIVED (R2, R3). -/
def execByteReceived (startCount : Nat) (byte : Byte) (stopValid : Bool) (s : State) :
    Host.Outcome State Fault Refusal :=
  act (receiveLineByte startCount byte stopValid) s

/-- IDENT (R12). -/
def execIdent (tag : Byte) (s : State) : Host.Outcome State Fault Refusal := act (submit ⟨tag, .ident⟩) s

/-- STATUS (R12). -/
def execStatus (tag : Byte) (s : State) : Host.Outcome State Fault Refusal := act (submit ⟨tag, .status⟩) s

/-- RESET (R13): the answer; the reset is FRAME_SENT's. -/
def execReset (tag : Byte) (s : State) : Host.Outcome State Fault Refusal := act (submit ⟨tag, .reset⟩) s

/-- POWER_ON (00_scope.md, Resets): the RESET pin keeps its level (log 22). -/
def execPowerOn (s : State) : Host.Outcome State Fault Refusal := .next (hardwareReset s.resetLine s)

/-- RESET_LINE_ASSERTED (00_scope.md, Resets; R14, R15). -/
def execResetLineAsserted (s : State) : Host.Outcome State Fault Refusal := .next (hardwareReset true s)

/-- RESET_LINE_RELEASED (R15): the count starts from the 0 it was held at. -/
def execResetLineReleased (s : State) : Host.Outcome State Fault Refusal := .next { s with resetLine := false }

end Sys2Proof.Machine
end

