-- ==== Sys2Proof/Machine/SettingsCommands.lean ====
section
/-! DEFINITION. The meanings of the settings requests: CHANSET, INSET, INJECT, AMPON, AMPOFF, BRKSET, OUTSET
(chapters 3 to 7). The owners' checks and effects are in Machine/RequestOps.lean. -/

namespace Sys2Proof.Machine

/-- CHANSET (R53). -/
def execChanset (tag channel : Byte) (limit gain offset : Half) (mode : Byte) (s : State) :
    Host.Outcome State Fault Refusal :=
  act (submit ⟨tag, .chanset channel limit gain offset mode⟩) s

/-- INSET (R35). -/
def execInset (tag input mode polarity role : Byte) (window : Half) (s : State) :
    Host.Outcome State Fault Refusal :=
  act (submit ⟨tag, .inset input mode polarity role window⟩) s

/-- INJECT (R42). -/
def execInject (tag input level : Byte) (s : State) : Host.Outcome State Fault Refusal :=
  act (submit ⟨tag, .inject input level⟩) s

/-- AMPON (R84). -/
def execAmpon (tag group : Byte) (s : State) : Host.Outcome State Fault Refusal :=
  act (submit ⟨tag, .ampon group⟩) s

/-- AMPOFF (R86). -/
def execAmpoff (tag group : Byte) (s : State) : Host.Outcome State Fault Refusal :=
  act (submit ⟨tag, .ampoff group⟩) s

/-- BRKSET (R93, R94). -/
def execBrkset (tag : Byte) (openA openB openC close arcing charge discrepancy : Word) (side : Byte)
    (openAmp : Half) (posA posB posC spring : Byte) (s : State) : Host.Outcome State Fault Refusal :=
  act (submit ⟨tag, .brkset openA openB openC close arcing charge discrepancy side openAmp posA posB posC spring⟩) s

/-- OUTSET (R122). -/
def execOutset (tag output source bit : Byte) (s : State) : Host.Outcome State Fault Refusal :=
  act (submit ⟨tag, .outset output source bit⟩) s

end Sys2Proof.Machine
end

