-- ==== Sys2Proof/Machine/TableCommands.lean ====
section
/-! DEFINITION. The meanings of the state table's and the report store's requests: STWRITE, STREAD, STCLEAR,
CNTSET (chapter 8) and REPREAD (chapter 11). -/

namespace Sys2Proof.Machine

/-- STWRITE (R135, R136). The control link's own check of the body length comes first (R6). -/
def execStwrite (tag : Byte) (body : List Byte) (s : State) : Host.Outcome State Fault Refusal :=
  act (receiveFrame 0x20 tag body) s

/-- STREAD (R137). -/
def execStread (tag index : Byte) (s : State) : Host.Outcome State Fault Refusal :=
  act (submit ⟨tag, .stread index⟩) s

/-- STCLEAR (R138). -/
def execStclear (tag index : Byte) (s : State) : Host.Outcome State Fault Refusal :=
  act (submit ⟨tag, .stclear index⟩) s

/-- CNTSET (R142, R143). -/
def execCntset (tag counter source parameter : Byte) (s : State) : Host.Outcome State Fault Refusal :=
  act (submit ⟨tag, .cntset counter source parameter⟩) s

/-- REPREAD (R198). -/
def execRepread (tag n : Byte) (s : State) : Host.Outcome State Fault Refusal := act (submit ⟨tag, .repread n⟩) s

end Sys2Proof.Machine
end

