-- ==== Sys2Proof/Machine/TimeCommands.lean ====
section
/-! DEFINITION. The meanings of the time base's rows (chapter 2): TCAL, TCALX, TSEC, PPS_EDGE, INTERNAL_MARK and
CLOSING_PULSE. -/

namespace Sys2Proof.Machine

/-- TCAL (R23). -/
def execTcal (tag k : Byte) (s : State) : Host.Outcome State Fault Refusal := act (submit ⟨tag, .tcal k⟩) s

/-- TCALX (R29). -/
def execTcalx (tag : Byte) (s : State) : Host.Outcome State Fault Refusal := act (submit ⟨tag, .tcalx⟩) s

/-- TSEC (R20). -/
def execTsec (tag : Byte) (n : Word) (s : State) : Host.Outcome State Fault Refusal := act (submit ⟨tag, .tsec n⟩) s

/-- PPS_EDGE (R17, R20, R22, R24, R25, R27). -/
def execPpsEdge (s : State) : Host.Outcome State Fault Refusal := act ppsEdge s

/-- INTERNAL_MARK (R18, R21, R27). -/
def execInternalMark (s : State) : Host.Outcome State Fault Refusal :=
  act (whenDue (internalMarkDue s) internalMark) s

/-- CLOSING_PULSE (R24, R25, R28): the PPS edge that ends the calibration (log 4). -/
def execClosingPulse (s : State) : Host.Outcome State Fault Refusal :=
  act (whenDue (closingPulseDue s) ppsEdge) s

end Sys2Proof.Machine
end

