-- ==== Sys2Proof/Machine/Dispatch.lean ====
section
/-! DEFINITION. One arm per command: a direct call of its meaning. -/

namespace Sys2Proof.Machine

/-- The effect of a command on everything but the queue. -/
def exec (i : Instr) (s : State) : Host.Outcome State Fault Refusal :=
  match i with
  | .frameReceived x0 x1 x2 => Sys2Proof.Machine.execFrameReceived x0 x1 x2 s
  | .interByteGap => Sys2Proof.Machine.execInterByteGap s
  | .frameSent => Sys2Proof.Machine.execFrameSent s
  | .ident x0 => Sys2Proof.Machine.execIdent x0 s
  | .status x0 => Sys2Proof.Machine.execStatus x0 s
  | .reset x0 => Sys2Proof.Machine.execReset x0 s
  | .chanset x0 x1 x2 x3 x4 x5 => Sys2Proof.Machine.execChanset x0 x1 x2 x3 x4 x5 s
  | .inset x0 x1 x2 x3 x4 x5 => Sys2Proof.Machine.execInset x0 x1 x2 x3 x4 x5 s
  | .inject x0 x1 x2 => Sys2Proof.Machine.execInject x0 x1 x2 s
  | .ampon x0 x1 => Sys2Proof.Machine.execAmpon x0 x1 s
  | .ampoff x0 x1 => Sys2Proof.Machine.execAmpoff x0 x1 s
  | .brkset x0 x1 x2 x3 x4 x5 x6 x7 x8 x9 x10 x11 x12 x13 => Sys2Proof.Machine.execBrkset x0 x1 x2 x3 x4 x5 x6 x7 x8 x9 x10 x11 x12 x13 s
  | .outset x0 x1 x2 x3 => Sys2Proof.Machine.execOutset x0 x1 x2 x3 s
  | .stwrite x0 x1 => Sys2Proof.Machine.execStwrite x0 x1 s
  | .stread x0 x1 => Sys2Proof.Machine.execStread x0 x1 s
  | .stclear x0 x1 => Sys2Proof.Machine.execStclear x0 x1 s
  | .cntset x0 x1 x2 x3 => Sys2Proof.Machine.execCntset x0 x1 x2 x3 s
  | .run x0 x1 x2 x3 x4 x5 x6 x7 x8 => Sys2Proof.Machine.execRun x0 x1 x2 x3 x4 x5 x6 x7 x8 s
  | .halt x0 => Sys2Proof.Machine.execHalt x0 s
  | .go x0 => Sys2Proof.Machine.execGo x0 s
  | .tcal x0 x1 => Sys2Proof.Machine.execTcal x0 x1 s
  | .tcalx x0 => Sys2Proof.Machine.execTcalx x0 s
  | .tsec x0 x1 => Sys2Proof.Machine.execTsec x0 x1 s
  | .repread x0 x1 => Sys2Proof.Machine.execRepread x0 x1 s
  | .powerOn => Sys2Proof.Machine.execPowerOn s
  | .resetLineAsserted => Sys2Proof.Machine.execResetLineAsserted s
  | .resetLineReleased => Sys2Proof.Machine.execResetLineReleased s
  | .ppsEdge => Sys2Proof.Machine.execPpsEdge s
  | .internalMark => Sys2Proof.Machine.execInternalMark s
  | .closingPulse => Sys2Proof.Machine.execClosingPulse s
  | .qualification x0 => Sys2Proof.Machine.execQualification x0 s
  | .windowEnd x0 => Sys2Proof.Machine.execWindowEnd x0 s
  | .gridInstant => Sys2Proof.Machine.execGridInstant s
  | .acknowledgment x0 x1 x2 x3 => Sys2Proof.Machine.execAcknowledgment x0 x1 x2 x3 s
  | .settlingComplete x0 x1 x2 x3 => Sys2Proof.Machine.execSettlingComplete x0 x1 x2 x3 s
  | .linkLost x0 => Sys2Proof.Machine.execLinkLost x0 s
  | .overloadEvent x0 x1 x2 x3 x4 => Sys2Proof.Machine.execOverloadEvent x0 x1 x2 x3 x4 s
  | .contactsParted x0 => Sys2Proof.Machine.execContactsParted x0 s
  | .interruptedForced x0 => Sys2Proof.Machine.execInterruptedForced x0 s
  | .closingExpiry x0 => Sys2Proof.Machine.execClosingExpiry x0 s
  | .springCharged => Sys2Proof.Machine.execSpringCharged s
  | .discrepancyTrip => Sys2Proof.Machine.execDiscrepancyTrip s
  | .afterExit x0 => Sys2Proof.Machine.execAfterExit x0 s
  | .guardExpiry => Sys2Proof.Machine.execGuardExpiry s
  | .limit => Sys2Proof.Machine.execLimit s
  | .gapEnd => Sys2Proof.Machine.execGapEnd s
  | .decrementToZero x0 x1 => Sys2Proof.Machine.execDecrementToZero x0 x1 s
  | .contactSample x0 x1 => Sys2Proof.Machine.execContactSample x0 x1 s
  | .byteReceived x0 x1 x2 => Sys2Proof.Machine.execByteReceived x0 x1 x2 s
  | .acknowledgmentByte x0 x1 => Sys2Proof.Machine.execAcknowledgmentByte x0 x1 s

end Sys2Proof.Machine
end

