-- ==== Sys2Proof/Machine/Step.lean ====
section
/-! DEFINITION. One step: the command at the front of the queue, else an event that is due, else one oscillator
count (log 1). -/

namespace Sys2Proof.Machine

/-- A step takes the command at the front of the queue; on an empty queue it carries out a due event of the part's
own, or lets one oscillator count pass. -/
def step (s : State) : Host.Outcome State Fault Refusal :=
  match s.pending with
  | c :: rest => exec c { s with pending := rest }
  | [] =>
    match nextDue s with
    | some due => exec due.1 due.2
    | none => .next (advanceCount s)

/-- The command a word spells, put at the front of the queue; no row of the table gives bits, so no word spells
one. -/
def State.withFetchWord (s : State) (nbits w : Nat) : State :=
  match decodeTableWord nbits w with
  | some c => { s with pending := c :: s.pending }
  | none => s

end Sys2Proof.Machine
end

