-- ==== Sys2Proof/Safety.lean ====
section
/-! DEFINITION. What the later statements mean by a step that goes on, the requests, fields and byte layouts they name
(R203 to R205), and the properties of states that every step is held to. -/

namespace Sys2Proof.Machine

/-- A request that arrives is taken into service at once (R4). -/
def listening (s : State) : Prop := s.resetLine = false ∧ s.cl.inService = none

/-- The state in which a request taken into service has been answered (R4, R8) and nothing else has changed but
for the end of the step. -/
def answering (h : HeldRequest) (status : Status) (payload : List Byte) (s : State) : State :=
  settle (pushAnswer ⟨h.request.kind, h.tag, status, payload, true⟩ (putCl { s.cl with inService := some h } s))

/-- A group is spared at a frame instant: no link loss is settled (R83). -/
def spared (x : AmpGroup) : Prop := x.isSent = true → x.outstanding = none ∨ x.missed < 3

/-- A grid instant that is a sample of the run: the run's own, and no run end takes its place (R54, R166). -/
def sampleHere (s : State) : Prop :=
  s.resetLine = false ∧ s.count = s.ws.nextGrid ∧ s.inRun = true ∧ sampleEnd s.now s = none

/-- A sample of the run at which no state is entered, nor has just been entered (R158). -/
def plainSample (s : State) : Prop := sampleHere s ∧ entryDue s = none ∧ s.sq.entrySample = false

/-- R117: BI(k+1) has a trip or close role, and sample 0 of the run in progress lies at the present count and has not been
taken; an ACTIVE edge of the input waits for it (log 43). -/
def commandWaits (k : Fin 12) (s : State) : Prop :=
  s.ci.inputs[k].role ≠ .timing ∧ s.inRun = true ∧ s.count = s.ws.nextGrid ∧ ∃ c, s.tb.latch = some ⟨s.count, c⟩

/-- The pole's arc would be quenched at a sample with this state (R69, R103): the candidate is 0, or it and s_prev have
opposite signs. -/
def arcCrosses (p : Pole) (s : State) : Prop :=
  let x := s.ws.live[currentChannel p]
  let candidate := clampInt (-32767) 32767 (sineCode (x.aFix / 65536).toNat x.theta + Int.tdiv x.d 65536)
  candidate = 0 ∨ (candidate < 0 ∧ 0 < x.sPrev) ∨ (0 < candidate ∧ x.sPrev < 0)

/-- The pole is in the open class (R59). -/
def poleOpen (p : Pole) (s : State) : Prop := s.bs.poles.get p = .opened ∨ ∃ start, s.bs.poles.get p = .closing start

/-- A second mark is watched for (R149): ARMED with trigger AT_SECOND. -/
def awaitsSecond (s : State) : Prop :=
  s.sq.state = .armed ∧ ∃ r, s.sq.settings = some r ∧ r.trigger = .atSecond

/-- The wait or the chain is over without a run (R149, R150, R151, R170): IDLE, and a CHAIN_END notice. -/
def waitEnded (s : State) : State :=
  raiseNotice .chainEnd { s with sq := { s.sq with state := .idle, settings := none, gapEnd := none } }

/-- The state u comes from s, in which a mark has just been placed, when the mark is handed to the sequencer (R19, R149,
R150): only an armed AT_SECOND run acts on it. -/
def markHanded (mark : Nat) (internal : Bool) (s u : State) : Prop :=
  (¬ awaitsSecond s → u = s) ∧
  ∀ r, s.sq.state = .armed → s.sq.settings = some r → r.trigger = .atSecond →
    (s.tb.second < r.second → u = s) ∧
    (s.tb.second = r.second → s.rs.records.length ≤ 638 → u = startRun mark internal s) ∧
    (s.tb.second = r.second → 638 < s.rs.records.length → u = waitEnded s) ∧
    (r.second < s.tb.second → u = waitEnded s)

/-- What a row that names an instant of the part's own comes to (log 4): the whole step in which the instant happens where
it is due, and nothing but the end of the step where it is not. -/
def onlyWhenDue (c : Instr) (due : Prop) (whole : Host.Outcome State Fault Refusal) (s : State) : Prop :=
  (due → exec c s = whole) ∧ (¬ due → exec c s = .next (settle s))

/-- R16: E as the correction in force gives it. -/
def withInterval (s : State) : State :=
  putTb { s.tb with interval := (10000000 + roundDiv s.tb.c 100).toNat } s

/-- The request that a request command carries (R203; log 8). STWRITE, which carries a body of its own length, goes
through the frame (R6). -/
def requestOf : Instr → Option HeldRequest
  | .ident tag => some ⟨tag, .ident⟩
  | .status tag => some ⟨tag, .status⟩
  | .reset tag => some ⟨tag, .reset⟩
  | .chanset tag channel limit gain offset mode => some ⟨tag, .chanset channel limit gain offset mode⟩
  | .inset tag input mode polarity role window => some ⟨tag, .inset input mode polarity role window⟩
  | .inject tag input level => some ⟨tag, .inject input level⟩
  | .ampon tag group => some ⟨tag, .ampon group⟩
  | .ampoff tag group => some ⟨tag, .ampoff group⟩
  | .brkset tag a b c close arcing charge discrepancy side openAmp posA posB posC spring =>
    some ⟨tag, .brkset a b c close arcing charge discrepancy side openAmp posA posB posC spring⟩
  | .outset tag output source bit => some ⟨tag, .outset output source bit⟩
  | .stread tag index => some ⟨tag, .stread index⟩
  | .stclear tag index => some ⟨tag, .stclear index⟩
  | .cntset tag counter source parameter => some ⟨tag, .cntset counter source parameter⟩
  | .run tag mode repeats gap trigger second first frequency action =>
    some ⟨tag, .run mode repeats gap trigger second first frequency action⟩
  | .halt tag => some ⟨tag, .halt⟩
  | .go tag => some ⟨tag, .go⟩
  | .tcal tag k => some ⟨tag, .tcal k⟩
  | .tcalx tag => some ⟨tag, .tcalx⟩
  | .tsec tag n => some ⟨tag, .tsec n⟩
  | .repread tag n => some ⟨tag, .repread n⟩
  | _ => none

/-- The byte, and the two and four bytes, low byte first, at an offset of a body (R203, R204); 0 past its end. -/
def bodyByte (body : List Byte) (k : Nat) : Nat := (body.getD k 0).toNat

def bodyHalf (body : List Byte) (k : Nat) : Nat := bodyByte body k + 256 * bodyByte body (k + 1)

def bodyWord (body : List Byte) (k : Nat) : Nat := bodyHalf body k + 65536 * bodyHalf body (k + 2)

/-- The code of a name in a list whose names are numbered from 0 in the order given (R202). -/
def codeIn {α : Type} [BEq α] (names : List α) (x : α) : Nat := names.idxOf x

/-- The two's complement pattern of the four bytes at an offset is that of the number z (R1). -/
def signedAt (body : List Byte) (k : Nat) (z : Int) : Prop := BitVec.ofNat 32 (bodyWord body k) = BitVec.ofInt 32 z

/-- What a snapshot of this state shows (R12). -/
def snapshotShows (x : Snapshot) (s : State) : Prop :=
  (x.seqState = s.sq.state ∧ x.runNumber = s.sq.runNumber ∧ x.lastOutcome = s.sq.lastOutcome) ∧
  x.current = (if s.sq.state = .running ∨ s.sq.state = .pointing then s.sq.current else none) ∧
  (∀ n, x.pendingTarget = some n ↔
    s.sq.state = .pointing ∧ ∃ y, s.sq.taken = some y ∧ y.target = .state n) ∧
  (∀ p,
    (x.poles.get p = .closed ↔ s.bs.poles.get p = .closed) ∧
    (x.poles.get p = .tripping ↔ ∃ a, s.bs.poles.get p = .tripping a) ∧
    (x.poles.get p = .arcing ↔ ∃ a, s.bs.poles.get p = .arcing a) ∧
    (x.poles.get p = .opened ↔ s.bs.poles.get p = .opened) ∧
    (x.poles.get p = .closing ↔ ∃ a, s.bs.poles.get p = .closing a)) ∧
  (x.springCharged = true ↔ s.bs.spring = .charged) ∧ (x.marks = s.sq.marks ∧ x.counters = s.sq.counters) ∧
  (x.levels.getLsbD 0 = s.ci.sync.settled ∧ (∀ k : Fin 12, x.levels.getLsbD (k.val + 1) = s.ci.inputs[k].settled) ∧
    ∀ k, 13 ≤ k → x.levels.getLsbD k = false) ∧
  (∀ k : Fin 8, x.outputs.getLsbD k.val = s.bo.outputs[k]) ∧
  (x.tbState = s.tb.state ∧ x.correction = s.tb.c ∧ x.pendingCorrection = s.tb.pendingC ∧ x.second = s.tb.second ∧
    x.epoch = s.tb.epoch) ∧
  (∀ g, x.groups.get g = (s.al.get g).state) ∧ x.fill = s.rs.records.length

/-- The 37 bytes of a snapshot, field by field (R203). -/
def snapshotLaidOut (x : Snapshot) (b : List Byte) : Prop :=
  let pole : PositionName → Nat := codeIn [.closed, .tripping, .arcing, .opened, .closing]
  let group : GroupState → Nat := codeIn [.off, .settling, .ready, .fault]
  b.length = 37 ∧ bodyByte b 0 = codeIn [.idle, .armed, .running, .pointing, .gap] x.seqState ∧
    bodyHalf b 1 = x.runNumber % 65536 ∧ bodyByte b 3 = x.current.elim 255 (·.val) ∧
    bodyByte b 4 = x.pendingTarget.elim 255 (·.val) ∧
    bodyByte b 5 =
      codeIn [none, some .complete, some .halted, some .ampFault, some .table, some .limit] x.lastOutcome ∧
    (bodyByte b 6 = pole x.poles.a ∧ bodyByte b 7 = pole x.poles.b ∧ bodyByte b 8 = pole x.poles.c) ∧
    bodyByte b 9 = codeIn [true, false] x.springCharged ∧ bodyHalf b 10 = x.marks.toNat ∧
    (∀ c : Fin 4, bodyByte b (12 + c.val) = x.counters[c] % 256) ∧ bodyHalf b 16 = x.levels.toNat ∧
    bodyByte b 18 = x.outputs.toNat ∧
    bodyByte b 19 = codeIn [.free, .calibrating, .locked, .holdover] x.tbState ∧ signedAt b 20 x.correction ∧
    bodyByte b 24 = (if x.pendingCorrection.isSome then 1 else 0) + (if x.epoch then 2 else 0) ∧
    signedAt b 25 (x.pendingCorrection.getD 0) ∧ bodyWord b 29 = x.second % 4294967296 ∧
    (bodyByte b 33 = group x.groups.v ∧ bodyByte b 34 = group x.groups.i) ∧ bodyHalf b 35 = x.fill % 65536

/-- One byte of a field. -/
def fieldByte (n : Nat) : List Byte := [BitVec.ofNat 8 n]

/-- The presence mask of a record's optional fields, the first one bit 0 (R196). -/
def maskOf : List Bool → Nat
  | [] => 0
  | present :: rest => (if present then 1 else 0) + 2 * maskOf rest

/-- The kind, presence mask and body of a record, its fields in the order of R195 and R205, an absent one without
bytes. -/
def recordGiven : RecordBody → Nat × Nat × List Byte
  | .runStart mode trigger first frequency cRun second holdover =>
    (1, maskOf [second.isSome],
      fieldByte (codeIn [.single, .repeated, .triggered] mode) ++
        fieldByte (codeIn [.immediate, .go, .sync, .atSecond] trigger) ++ fieldByte first.val ++
        leBytes 4 frequency ++ leSigned 4 cRun ++ second.elim [] (leBytes 4) ++
        fieldByte (codeIn [false, true] holdover))
  | .stateEntry state visit entryTime fromState exitIndex exitTime causeTime =>
    (2, maskOf [fromState.isSome, exitIndex.isSome, exitTime.isSome, causeTime.isSome],
      fieldByte state.val ++ leBytes 2 visit ++ leBytes 4 entryTime ++ fromState.elim [] (fieldByte ·.val) ++
        exitIndex.elim [] (fieldByte ·.val) ++ exitTime.elim [] (leBytes 4) ++ causeTime.elim [] (leBytes 4))
  | .inputEdge input direction edgeTime noise glitches bounces injected =>
    (3, 0,
      fieldByte input.val ++ fieldByte (codeIn [.inactive, .active] direction) ++ leBytes 4 edgeTime ++
        fieldByte (codeIn [false, true] noise) ++ fieldByte glitches ++ fieldByte bounces ++
        fieldByte (codeIn [false, true] injected))
  | .breaker subject event duration =>
    (4, maskOf [duration.isSome],
      fieldByte (codeIn [.pole .a, .pole .b, .pole .c, .mechanism] subject) ++
        fieldByte (codeIn [.tripAccepted, .contactsParted, .interrupted, .interruptedForced, .tripFree, .closed,
          .resolved, .closeAccepted, .closeBlocked, .closeRefused, .allClosed, .springCharged, .discrepancyTrip]
          event) ++
        duration.elim [] (leBytes 4))
  | .assess state visit item outcome measured =>
    (5, maskOf [measured.isSome],
      fieldByte state.val ++ leBytes 2 visit ++ fieldByte item ++
        fieldByte (codeIn [.early, .pass, .late, .missing, .fail, .abandoned] outcome) ++
        measured.elim [] (leSigned 8))
  | .clip channel start yRaw =>
    (6, maskOf [yRaw.isSome],
      fieldByte channel.val ++ fieldByte (codeIn [true, false] start) ++ yRaw.elim [] (leSigned 4))
  | .amp group event channel =>
    (7, maskOf [channel.isSome],
      fieldByte (codeIn [.v, .i] group) ++ fieldByte (codeIn [.linkLost, .overTemp, .overload] event) ++
        channel.elim [] (fieldByte ·.val))
  | .time event correction second =>
    (8, maskOf [correction.isSome, second.isSome],
      fieldByte (codeIn [.holdover, .relocked, .calDone, .calRejected, .calFailed, .epochSet] event) ++
        correction.elim [] (leSigned 4) ++ second.elim [] (leBytes 4))
  | .runEnd outcome runTime visited pass nonPass lost =>
    (9, 0,
      fieldByte (codeIn [.complete, .halted, .ampFault, .table, .limit] outcome) ++ leBytes 4 runTime ++
        leBytes 4 visited ++ leBytes 4 pass ++ leBytes 4 nonPass ++ leBytes 4 lost)

/-- A record's bytes are its 13-byte head and its body (R190, R196, R205). -/
def recordLaidOut (r : Record) : Prop :=
  let given := recordGiven r.body
  r.bytes =
      fieldByte (13 + given.2.2.length) ++ leBytes 4 r.seq ++ fieldByte given.1 ++ leBytes 2 r.run ++
        leBytes 4 r.time ++ fieldByte given.2.1 ++ given.2.2 ∧
    14 ≤ r.bytes.length ∧ r.bytes.length ≤ 34

/-- A channel part as the 14 bytes at an offset give it, every quantity in range (R136, R204). -/
def channelGiven (body : List Byte) (o : Nat) : ChannelPart :=
  let w := bodyWord body (o + 4)
  { amplitude := min 32767 (bodyHalf body o)
    angle := bodyHalf body (o + 2) % 36000
    frequency := if w = 0 then 0 else max 5000 (min 1000000 w)
    rampTarget := min 32767 (bodyHalf body (o + 8))
    rampTime := min 60000 (bodyHalf body (o + 10))
    phaseMode := if bodyByte body (o + 12) = 1 then .keep else .set
    dcMode := if bodyByte body (o + 13) = 1 then .noDc else if bodyByte body (o + 13) = 2 then .holdDc else .continueDc }

/-- The direction of a code (R204). -/
def directionGiven (code : Nat) : Direction := if code = 1 then .active else .inactive

/-- The exit y is the one that the 8 bytes at an offset give (R136, R204). -/
def exitGiven (body : List Byte) (o : Nat) (y : Exit) : Prop :=
  let b (k : Nat) : Nat := bodyByte body (o + k)
  (b 0 = 0 → y.trigger = .after (min 4000000000 (bodyWord body (o + 1)))) ∧
  (∀ i : Fin 13, b 0 = 1 → b 1 = i.val → y.trigger = .edge i (directionGiven (b 2))) ∧
  (b 0 = 2 → y.trigger = .sync) ∧ (b 0 = 3 → y.trigger = .go) ∧
  (∀ v : BreakerEvent, b 0 = 4 → b 1 = v.code → y.trigger = .breaker v) ∧
  (∀ c : Fin 4, b 0 = 5 → b 1 = c.val → y.trigger = .count c) ∧
  (∀ m : Fin 16, b 0 = 6 → b 1 = m.val → y.trigger = .mark m) ∧
  (∀ m : Fin 24, b 5 = m.val → y.target = .state m) ∧ (b 5 = 255 → y.target = .finish) ∧
  (b 6 = 0 → y.action = none) ∧
  (∀ m : Fin 16, b 7 = m.val →
    (b 6 = 1 → y.action = some (.set m)) ∧ (b 6 = 2 → y.action = some (.clear m)))

/-- The item y is the one that the 12 bytes at an offset give (R136, R204). -/
def itemGiven (body : List Byte) (o : Nat) (y : Item) : Prop :=
  let b (k : Nat) : Nat := bodyByte body (o + k)
  (∀ i : Fin 13, b 0 = 0 → b 1 = i.val → y.subject = .edge i (directionGiven (b 2))) ∧
  (b 0 = 1 → y.subject = .anyOpen) ∧ (b 0 = 2 → y.subject = .allClosed) ∧
  y.kind = (if b 3 = 1 then .forbid else .expect) ∧
  y.lo = min 4000000000 (bodyWord body (o + 4)) ∧ y.hi = min 4000000000 (bodyWord body (o + 8))

/-- Items of a visit of this kind still OPEN. -/
def openItems (kind : ItemKind) (v : Option Visit) : Nat :=
  match v with
  | some x => (x.items.filter fun y => y.decision = none && y.item.kind = kind).length
  | none => 0

/-- A visit holds at most four items (R134). -/
def fourItems (a : Assessment) : Prop := ∀ v, a.visit = some v → v.items.length ≤ 4

/-- The outputs stand as their sources give (R121). -/
def outputsFollow (s : State) : Prop :=
  ∀ k : Fin 8,
    s.bo.outputs[k] =
      sourceValue s.bs.poles s.bs.spring s.bo.pattern s.inRun s.bo.bits[k] s.bo.sources[k]

/-- The report store as R187 to R192 leave it: at most 640 records, one place kept free while the run window is
open, and sequence numbers that rise through the store and stay below the next one. -/
def ReportStore.ordered (rs : ReportStore) : Prop :=
  rs.records.length ≤ 640 ∧ (rs.window.isSome → rs.records.length ≤ 639) ∧
    (rs.records.map (·.seq)).Pairwise (· < ·) ∧ (∀ r ∈ rs.records, r.seq < rs.nextSeq)

/-- The run in progress and what lives with it: the run window (R191), the run latch (R30), the breaker
simulator's activity (R95), and the run settings, absent in IDLE alone (R169). -/
def runCoherent (s : State) : Prop :=
  s.rs.ordered ∧ s.rs.window.isSome = s.inRun ∧ s.tb.latch.isSome = s.inRun ∧ s.bs.active = s.inRun ∧
    (s.sq.settings.isSome ↔ s.sq.state ≠ .idle)

/-- The answers from service that are queued or on the line. -/
def serviceAnswers (cl : ControlLink) : Nat :=
  (cl.answers.filter (·.fromService)).length +
    match cl.line with
    | some x => match x.frame with
      | .answer a => if a.fromService then 1 else 0
      | .notice _ => 0
    | none => 0

/-- The request slot as R4, R5 and R8 leave it: a request in service has exactly one answer on its way, none has
one otherwise, the holding slot waits only behind a request in service, at most eight OVERRUN answers are queued,
and the queue never holds more than nine. -/
def slotsCoherent (cl : ControlLink) : Prop :=
  serviceAnswers cl = (if cl.inService.isSome then 1 else 0) ∧ (cl.holding.isSome → cl.inService.isSome) ∧
    overrunCount cl.answers ≤ 8 ∧ cl.answers.length ≤ 9

end Sys2Proof.Machine
end

