-- ==== Sys2Proof/Certificates/Slice0/Obligations.lean ====
section
/-! DEFINITION. The statements for the provers. Most say exactly which next state exec answers; `settle` is the end
of every step (the outputs follow their sources and the arbiter has made its choice), and `answering` the state in
which a request has been answered and nothing else has changed. -/

open Sys2Proof Sys2Proof.Machine

/-! ### Steps -/

/-- Log 1 (the model's queue). -/
def Obligations.StepRunsTheCommandInFront : Prop :=
  ∀ (c : Instr) (rest : List Instr) (s : State), s.pending = c :: rest →
    step s = exec c { s with pending := rest }

/-- Log 1, log 2 (the model's choice for an empty queue); R15 gives the count. And which events are due: the end of a
sent frame (R8, R202; log 6), the closing of the window (R18), the contact sample (R34), a third candidate sample (R37,
R49), a window-end sample (R40), the fourth miss (R83; log 15), the grid instant (R54) and the end of a gap (R170). -/
def Obligations.StepOnAnEmptyQueueKeepsTheClock : Prop :=
  (∀ s : State, s.pending = [] →
    (s.resetLine = true → step s = .next s) ∧
    (s.resetLine = false → dueEvents s = [] → step s = .next { s with count := s.count + 1 }) ∧
    (s.resetLine = false → ∀ c, dueEvents s = [c] → step s = exec c s) ∧
    (s.resetLine = false → 2 ≤ (dueEvents s).length →
      ∃ c ∈ dueEvents s, step s = exec c { s with free := s.free + 1 })) ∧
  (∀ s : State,
    let due (c : Instr) : Prop := c ∈ dueEvents s
    let ripe (q : Qualifier) : Prop := ∃ first samples, q = .candidate first samples ∧ samples.length = 3
    (due .frameSent ↔ ∃ x, s.cl.line = some x ∧ x.start + (100 * x.frame.bytes.length + 2) / 3 ≤ s.count) ∧
    (due .internalMark ↔ ∃ p, s.tb.prevMark = some p ∧ s.count = p + s.tb.interval + 5001) ∧
    (∀ contacts sync, due (.contactSample contacts sync) ↔
      s.count = s.ci.nextSample ∧ contacts = s.contactLines ∧ sync = s.syncLine) ∧
    (due (.qualification 0) ↔ ripe s.ci.sync.qualifier) ∧
    (∀ k : Fin 12, due (.qualification k.succ) ↔ ripe s.ci.inputs[k].qualifier) ∧
    ¬ due (.windowEnd 0) ∧
    (∀ k : Fin 12, due (.windowEnd k.succ) ↔
      ∃ last, s.ci.inputs[k].qualifier = .window last ∧ last ≤ s.count ∧ s.ci.nextSample = s.count + 100) ∧
    (∀ g, due (.linkLost g) ↔
      let y := s.al.get g
      s.count = s.ws.nextGrid ∧ (y.state = .settling ∨ y.state = .ready) ∧ y.outstanding.isSome ∧ y.missed = 3) ∧
    (due .gridInstant ↔ s.count = s.ws.nextGrid) ∧
    (due .gapEnd ↔ s.sq.state = .gap ∧ ∃ e, s.sq.gapEnd = some e ∧ e ≤ s.count) ∧
    (∀ c, due c → c ∈ ([.frameSent, .internalMark, .gridInstant, .gapEnd] : List Instr) ∨
      (∃ contacts sync, c = .contactSample contacts sync) ∨ (∃ n, c = .qualification n ∨ c = .windowEnd n) ∨
      ∃ g, c = .linkLost g) ∧
    (dueEvents s).Nodup)

/-! ### The control link -/

/-- R203: every request body, laid out byte by byte, is read back with every operand at every value. -/
def Obligations.RequestBodiesReadBack : Prop :=
  parseRequest 0x01 [] = .ident ∧ parseRequest 0x02 [] = .status ∧ parseRequest 0x03 [] = .reset ∧
  (∀ (ch : Byte) (l g o : Half) (m : Byte),
    parseRequest 0x10 ([ch] ++ leBytes 2 l.toNat ++ leBytes 2 g.toNat ++ leBytes 2 o.toNat ++ [m]) =
      .chanset ch l g o m) ∧
  (∀ (n m p r : Byte) (w : Half), parseRequest 0x11 ([n, m, p, r] ++ leBytes 2 w.toNat) = .inset n m p r w) ∧
  (∀ n l : Byte, parseRequest 0x12 [n, l] = .inject n l) ∧
  (∀ g : Byte, parseRequest 0x13 [g] = .ampon g) ∧
  (∀ g : Byte, parseRequest 0x14 [g] = .ampoff g) ∧
  (∀ (a b c d e f g : Word) (side : Byte) (amp : Half) (x y z w : Byte),
    parseRequest 0x15 (leBytes 4 a.toNat ++ leBytes 4 b.toNat ++ leBytes 4 c.toNat ++ leBytes 4 d.toNat ++
      leBytes 4 e.toNat ++ leBytes 4 f.toNat ++ leBytes 4 g.toNat ++ [side] ++ leBytes 2 amp.toNat ++ [x, y, z, w]) =
      .brkset a b c d e f g side amp x y z w) ∧
  (∀ n x b : Byte, parseRequest 0x16 [n, x, b] = .outset n x b) ∧
  (∀ body : List Byte, 133 ≤ body.length → body.length ≤ 229 → parseRequest 0x20 body = .stwrite body) ∧
  (∀ n : Byte, parseRequest 0x21 [n] = .stread n) ∧
  (∀ n : Byte, parseRequest 0x22 [n] = .stclear n) ∧
  (∀ c x p : Byte, parseRequest 0x23 [c, x, p] = .cntset c x p) ∧
  (∀ (m : Byte) (n : Half) (gap : Word) (t : Byte) (second : Word) (first : Byte) (f : Word) (a : Byte),
    parseRequest 0x30 ([m] ++ leBytes 2 n.toNat ++ leBytes 4 gap.toNat ++ [t] ++ leBytes 4 second.toNat ++ [first] ++
      leBytes 4 f.toNat ++ [a]) = .run m n gap t second first f a) ∧
  parseRequest 0x31 [] = .halt ∧ parseRequest 0x32 [] = .go ∧
  (∀ k : Byte, parseRequest 0x38 [k] = .tcal k) ∧ parseRequest 0x39 [] = .tcalx ∧
  (∀ n : Word, parseRequest 0x3A (leBytes 4 n.toNat) = .tsec n) ∧
  (∀ n : Byte, parseRequest 0x3C [n] = .repread n)

/-- R1, R2: the bytes of a frame, taken one after another from HUNT, are the frame. -/
def Obligations.FrameBytesAreTheFrame : Prop :=
  ∀ (kind tag : Byte) (body : List Byte) (s : State), body.length ≤ 1024 → s.cl.receiver = .hunt →
    (frameBytes kind tag body).foldl (fun s b => receiveByte b s) s = submitFrame kind tag body s

/-- R4, R5, R6: what becomes of a frame; and of every request command that finds a request in service (log 8). -/
def Obligations.FramesAreServedHeldOrRefused : Prop :=
  (∀ (kind tag : Byte) (body : List Byte) (s0 : State), s0.resetLine = false →
    let s := putReceiver .hunt s0
    let h : HeldRequest := ⟨tag, parseRequest kind body⟩
    let u := putCl { s.cl with inService := some h } s
    (1024 < body.length → exec (.frameReceived kind tag body) s0 = .next (settle s)) ∧
    (body.length ≤ 1024 → s.cl.inService = none →
      exec (.frameReceived kind tag body) s0 =
        .next (settle (pushAnswer
          ⟨kind, tag, (carryOut h.request u).1.status, (carryOut h.request u).1.payload, true⟩
          (carryOut h.request u).2))) ∧
    (body.length ≤ 1024 → s.cl.inService.isSome → s.cl.holding = none →
      exec (.frameReceived kind tag body) s0 = .next (settle (putCl { s.cl with holding := some h } s))) ∧
    (body.length ≤ 1024 → s.cl.inService.isSome → s.cl.holding.isSome → overrunCount s.cl.answers < 8 →
      exec (.frameReceived kind tag body) s0 = .next (settle (pushAnswer ⟨kind, tag, .overrun, [], false⟩ s))) ∧
    (body.length ≤ 1024 → s.cl.inService.isSome → s.cl.holding.isSome → 8 ≤ overrunCount s.cl.answers →
      exec (.frameReceived kind tag body) s0 = .next (settle s)) ∧
    (body.length ≤ 1024 → s.cl.inService = none → requestLengths kind.toNat = none →
      exec (.frameReceived kind tag body) s0 = .next (answering ⟨tag, .unknownKind kind⟩ .unknown [] s)) ∧
    (∀ least greatest, body.length ≤ 1024 → s.cl.inService = none →
      requestLengths kind.toNat = some (least, greatest) → ¬ (least ≤ body.length ∧ body.length ≤ greatest) →
      exec (.frameReceived kind tag body) s0 = .next (answering ⟨tag, .wrongLength kind⟩ .length [] s))) ∧
  (∀ (c : Instr) (h : HeldRequest) (s : State), requestOf c = some h → s.resetLine = false →
    s.cl.inService.isSome →
    (s.cl.holding = none → exec c s = .next (settle (putCl { s.cl with holding := some h } s))) ∧
    (s.cl.holding.isSome → overrunCount s.cl.answers < 8 →
      exec c s = .next (settle (pushAnswer ⟨h.request.kind, h.tag, .overrun, [], false⟩ s))) ∧
    (s.cl.holding.isSome → 8 ≤ overrunCount s.cl.answers → exec c s = .next (settle s))) ∧
  (∀ (tag : Byte) (body : List Byte) (s : State), exec (.stwrite tag body) s = exec (.frameReceived 0x20 tag body) s)

/-- R12, R13, R203: part code 620 (026Ch), revision 1; the snapshot, what it shows and the bytes that carry it, alone in
a STATUS answer and after the cause in a notice; RESET is answered OK and, until its answer has been sent, changes
nothing. -/
def Obligations.IdentStatusAndResetAnswer : Prop :=
  (∀ (tag : Byte) (s : State), listening s →
    exec (.ident tag) s = .next (answering ⟨tag, .ident⟩ .ok [0x6C, 0x02, 0x01] s) ∧
    exec (.status tag) s = .next (answering ⟨tag, .status⟩ .ok s.snapshot.bytes s) ∧
    s.snapshot.bytes.length = 37 ∧
    exec (.reset tag) s = .next (answering ⟨tag, .reset⟩ .ok [] s)) ∧
  (∀ s : State, snapshotShows s.snapshot s) ∧ (∀ x : Snapshot, snapshotLaidOut x x.bytes) ∧
  (∀ n : Notice, n.body = BitVec.ofNat 8 (1 + codeIn [.runEnd, .chainEnd, .ampFault, .timebase, .fill] n.cause) ::
    n.snapshot.bytes)

/-- R13, R14, R33, R51, R79, R92, R120, R129, R144, R171, R186, R201: what stands when the RESET answer's last byte
has been sent. The values of the blocks' reset constants are listed in HardwareResetsAndTheResetLine. -/
def Obligations.EndOfTheResetAnswerResetsThePart : Prop :=
  ∀ (tag : Byte) (a : Answer) (start : Nat) (s : State), s.resetLine = false →
    s.cl.line = some ⟨.answer a, start⟩ → a.fromService = true → s.cl.inService = some ⟨tag, .reset⟩ →
    ∃ t, exec .frameSent s = .next t ∧
      t.cl = { ControlLink.reset with receiver := s.cl.receiver, lastStop := s.cl.lastStop } ∧
      t.tb = { s.tb with latch := none } ∧
      (∀ k : Fin 12, t.ci.inputs[k] = { ContactInput.reset with history := s.ci.inputs[k].history }) ∧
      t.ci.sync = { SyncInput.reset with history := s.ci.sync.history } ∧ t.ci.nextSample = s.ci.nextSample ∧
      t.ws = { Synthesis.reset with nextGrid := s.ws.nextGrid, lastGrid := s.ws.lastGrid } ∧
      t.al = AmpLink.reset ∧ t.bs = Breaker.reset ∧ t.bo = BinaryOutputs.reset ∧ t.st = StateTable.reset ∧
      t.sq = Sequencer.reset ∧ t.asmt = Assessment.reset ∧ t.rs = ReportStore.reset ∧
      t.count = s.count ∧ t.resetLine = false ∧ t.contactLines = s.contactLines ∧ t.syncLine = s.syncLine ∧
      t.free = s.free ∧ t.pending = s.pending

/-- R8, R10: the end of a frame frees the line; the waiting request is taken; answers go before the notice. -/
def Obligations.EndOfAFrameFreesTheLine : Prop :=
  (∀ (s : State) (x : Transmission), s.resetLine = false → s.cl.line = some x →
    let s1 := putCl { s.cl with line := none } s
    (∀ n, x.frame = .notice n → exec .frameSent s = .next (settle s1)) ∧
    (∀ a, x.frame = .answer a → a.fromService = false → exec .frameSent s = .next (settle s1)) ∧
    (∀ a h, x.frame = .answer a → a.fromService = true → s.cl.inService = some h → h.request ≠ .reset →
      s.cl.holding = none → exec .frameSent s = .next (settle (putCl { s1.cl with inService := none } s1))) ∧
    (∀ a h w, x.frame = .answer a → a.fromService = true → s.cl.inService = some h → h.request ≠ .reset →
      s.cl.holding = some w →
      exec .frameSent s =
        .next (settle (serve w (putCl { s1.cl with inService := none, holding := none } s1))))) ∧
  (∀ s : State, s.cl.line = none →
    (∀ a rest, s.cl.answers = a :: rest →
      arbitrate s = putCl { s.cl with answers := rest, line := some ⟨.answer a, s.count⟩ } s) ∧
    (∀ n, s.cl.answers = [] → s.cl.notice = some n →
      arbitrate s = putCl { s.cl with notice := none, line := some ⟨.notice n, s.count⟩ } s) ∧
    (s.cl.answers = [] → s.cl.notice = none → arbitrate s = s)) ∧
  (∀ s : State, s.cl.line.isSome → arbitrate s = s)

/-- R2, R3: one byte on the line, in every phase of the receiver, and the inter-byte gap. -/
def Obligations.BytesMoveTheReceiver : Prop :=
  ∀ (start : Nat) (b : Byte) (s : State), s.resetLine = false →
    let into (r : Receiver) : State := settle (putCl { s.cl with receiver := r, lastStop := s.count } s)
    (s.cl.receiver = .hunt →
      exec (.byteReceived start b true) s = .next (into (if b = 0xD1 then .sync else .hunt)) ∧
      exec (.byteReceived start b false) s = .next (into .hunt)) ∧
    (s.cl.receiver ≠ .hunt →
      exec (.byteReceived start b false) s = .next (into .hunt) ∧
      (s.cl.lastStop + 2000 < start →
        exec (.byteReceived start b true) s = .next (into (if b = 0xD1 then .sync else .hunt))) ∧
      (s.cl.lastStop + 2000 < s.count → exec .interByteGap s = .next (settle (putReceiver .hunt s))) ∧
      (start ≤ s.cl.lastStop + 2000 →
        (s.cl.receiver = .sync →
          exec (.byteReceived start b true) s =
            .next (into (if b = 0x2E then .header [] else if b = 0xD1 then .sync else .hunt))) ∧
        (∀ f, s.cl.receiver = .header f → f = [] ∨ f.length = 2 →
          exec (.byteReceived start b true) s = .next (into (.header (f ++ [b])))) ∧
        (∀ low, s.cl.receiver = .header [low] →
          exec (.byteReceived start b true) s =
            .next (into (if 1024 < low.toNat + 256 * b.toNat then .hunt else .header [low, b]))) ∧
        (∀ low high kind, s.cl.receiver = .header [low, high, kind] →
          exec (.byteReceived start b true) s =
            .next (into (if low.toNat + 256 * high.toNat = 0 then .check kind b [] none
              else .body (low.toNat + 256 * high.toNat) kind b []))) ∧
        (∀ n kind tag got, s.cl.receiver = .body n kind tag got →
          exec (.byteReceived start b true) s =
            .next (into (if n ≤ got.length + 1 then .check kind tag (got ++ [b]) none
              else .body n kind tag (got ++ [b])))) ∧
        (∀ kind tag body, s.cl.receiver = .check kind tag body none →
          exec (.byteReceived start b true) s = .next (into (.check kind tag body (some b)))) ∧
        (∀ kind tag body low, s.cl.receiver = .check kind tag body (some low) →
          crcBytes (crc16 (leBytes 2 body.length ++ [kind, tag] ++ body)) ≠ [low, b] →
          exec (.byteReceived start b true) s = .next (into .hunt)) ∧
        (∀ kind tag body low, s.cl.receiver = .check kind tag body (some low) →
          crcBytes (crc16 (leBytes 2 body.length ++ [kind, tag] ++ body)) = [low, b] →
          let u := submitFrame kind tag body (putReceiver .hunt s)
          exec (.byteReceived start b true) s = .next (settle (putCl { u.cl with lastStop := s.count } u)))))

/-! ### Settings -/

/-- R53. -/
def Obligations.ChansetSetsOneChannel : Prop :=
  ∀ (tag channel : Byte) (limit gain offset : Half) (mode : Byte) (s : State), listening s →
    let h : HeldRequest := ⟨tag, .chanset channel limit gain offset mode⟩
    let bad := 7 < channel.toNat ∨ 1 < mode.toNat ∨ (mode = 1 ∧ channel ≠ 7)
    let l := clampNat 1 32767 limit.toNat
    let g := clampNat 28672 36864 gain.toNat
    let o := clampInt (-2048) 2047 offset.toInt
    let ch : Fin 8 := Fin.ofNat 8 channel.toNat
    (bad → exec (.chanset tag channel limit gain offset mode) s = .next (answering h .range [] s)) ∧
    (¬ bad → s.sq.state ≠ .idle →
      exec (.chanset tag channel limit gain offset mode) s = .next (answering h .busy [] s)) ∧
    (¬ bad → s.sq.state = .idle →
      exec (.chanset tag channel limit gain offset mode) s =
        .next (answering h (if l = limit.toNat ∧ g = gain.toNat ∧ o = offset.toInt then .ok else .clamped)
          ([channel] ++ leBytes 2 l ++ leBytes 2 g ++ leSigned 2 o ++ [mode])
          { s with ws := { s.ws with
              settings := s.ws.settings.set ch ⟨l, g, o⟩
              ieMode := if channel = 7 then (if mode = 1 then .residual else .independent) else s.ws.ieMode } }))

/-- R35. -/
def Obligations.InsetSetsOneInput : Prop :=
  ∀ (tag input mode polarity role : Byte) (window : Half) (s : State), listening s →
    let h : HeldRequest := ⟨tag, .inset input mode polarity role window⟩
    let bad := input = 0 ∨ 12 < input.toNat ∨ 2 < mode.toNat ∨ 1 < polarity.toNat ∨ 5 < role.toNat
    let w := clampNat 0 25000 window.toNat
    (bad → exec (.inset tag input mode polarity role window) s = .next (answering h .range [] s)) ∧
    (¬ bad → s.sq.state ≠ .idle →
      exec (.inset tag input mode polarity role window) s = .next (answering h .busy [] s)) ∧
    (∀ (k : Fin 12) (m : InputMode) (p : Polarity) (r : Role), input.toNat = k.val + 1 →
      InputMode.ofCode mode.toNat = some m → Polarity.ofCode polarity.toNat = some p →
      Role.ofCode role.toNat = some r → s.sq.state = .idle →
      exec (.inset tag input mode polarity role window) s =
        .next (answering h (if w = window.toNat then .ok else .clamped) []
          (putInput k
            { mode := m, polarity := p, role := r, window := w, history := s.ci.inputs[k].history
              settled := m = .contact && presentMajority p s.ci.inputs[k].history
              qualifier := .steady, glitches := 0, bounces := 0, pendingEdge := none } s)))

/-- R42, R43, R46, R47, R117. The edge time right after a run start with an earlier T0 is the model's choice (log 33), and
so is the pending record that stands while the edge is delivered (log 16). No command can have acted at sample 0 (R117): an
edge that commands the breaker at the count of a sample 0 not yet taken comes after the grid instant, in one step, which is
the model's form (log 43). -/
def Obligations.InjectSetsTheLevel : Prop :=
  ∀ (tag input level : Byte) (s : State), listening s →
    let h : HeldRequest := ⟨tag, .inject input level⟩
    (input = 0 ∨ 12 < input.toNat → exec (.inject tag input level) s = .next (answering h .range [] s)) ∧
    (∀ k : Fin 12, input.toNat = k.val + 1 →
      let x := s.ci.inputs[k]
      let active := level = 1
      (1 < level.toNat → exec (.inject tag input level) s = .next (answering h .range [] s)) ∧
      (level.toNat ≤ 1 → x.mode ≠ .injected →
        exec (.inject tag input level) s = .next (answering h .order [] s)) ∧
      (level.toNat ≤ 1 → x.mode = .injected → x.settled = decide active →
        exec (.inject tag input level) s = .next (answering h .ok [] s)) ∧
      (level.toNat ≤ 1 → x.mode = .injected → x.settled ≠ decide active → s.inRun = false →
        exec (.inject tag input level) s =
          .next (answering h .ok [] (putInput k { x with settled := decide active, pendingEdge := none } s))) ∧
      (level.toNat ≤ 1 → x.mode = .injected → x.settled ≠ decide active → s.inRun = true →
        let direction := if active then Direction.active else Direction.inactive
        let served := putCl { s.cl with inService := some h } s
        let put (edge : Option PendingEdge) (v : State) : State :=
          putInput k { v.ci.inputs[k] with settled := decide active, pendingEdge := edge } v
        let answered (v : State) : State := settle (pushAnswer ⟨0x12, tag, .ok, [], true⟩ v)
        let delivered (v : State) : State :=
          let u := deliverEdge k.succ v.ci.inputs[k].role direction v.now
            (put (some ⟨direction, v.now, false, 0, true⟩) v)
          writePending u.now u k
        let first := gridInstant served
        (¬ (active ∧ commandWaits k s) → exec (.inject tag input level) s = .next (answered (delivered served))) ∧
        (active → commandWaits k s →
          (first.inRun = true → exec (.inject tag input level) s = .next (answered (delivered first))) ∧
          (first.inRun = false → exec (.inject tag input level) s = .next (answered (put none first))))))

/-- R84, R86, R206. That AMPON outside OFF drops a partial acknowledgment and changes nothing else is the model's reading
of R84 and R206 together (log 20). -/
def Obligations.AmponAndAmpoffSetTheGroup : Prop :=
  ∀ (tag group : Byte) (s : State), listening s →
    let on : HeldRequest := ⟨tag, .ampon group⟩
    let off : HeldRequest := ⟨tag, .ampoff group⟩
    (1 < group.toNat →
      exec (.ampon tag group) s = .next (answering on .range [] s) ∧
      exec (.ampoff tag group) s = .next (answering off .range [] s)) ∧
    (∀ g, groupOfCode group.toNat = some g →
      let x := s.al.get g
      let cleared (state : GroupState) (number : Byte) : AmpGroup :=
        { x with state := state, frameNumber := number, outstanding := none, acked := 0, missed := 0
                 overRun := .replicate 4 0, episode := .replicate 4 false, receiver := [] }
      (x.state = .off →
        exec (.ampon tag group) s = .next (answering on .ok [group, 1] (putGroup g (cleared .settling 255) s))) ∧
      (x.state ≠ .off →
        exec (.ampon tag group) s =
          .next (answering on .ok [group, BitVec.ofNat 8 x.state.code] (putGroup g { x with receiver := [] } s))) ∧
      (s.sq.state ≠ .idle → exec (.ampoff tag group) s = .next (answering off .busy [] s)) ∧
      (s.sq.state = .idle →
        exec (.ampoff tag group) s =
          .next (answering off .ok [group, 0] (putGroup g (cleared .off x.frameNumber) s))))

/-- R93, R94. -/
def Obligations.BrksetSetsTheBreaker : Prop :=
  ∀ (tag : Byte) (openA openB openC close arcing charge discrepancy : Word) (side : Byte) (openAmp : Half)
    (posA posB posC spring : Byte) (s : State), listening s →
    let h : HeldRequest :=
      ⟨tag, .brkset openA openB openC close arcing charge discrepancy side openAmp posA posB posC spring⟩
    let c : Instr := .brkset tag openA openB openC close arcing charge discrepancy side openAmp posA posB posC spring
    let bad := 1 < side.toNat ∨ 1 < posA.toNat ∨ 1 < posB.toNat ∨ 1 < posC.toNat ∨ 1 < spring.toNat
    let d := if discrepancy.toNat = 0 then 0 else clampNat 50000 5000000 discrepancy.toNat
    let x : BreakerSettings :=
      { opening := ⟨clampNat 0 500000 openA.toNat, clampNat 0 500000 openB.toNat, clampNat 0 500000 openC.toNat⟩
        closing := clampNat 0 1000000 close.toNat, arcing := clampNat 1000 100000 arcing.toNat
        charge := clampNat 0 60000000 charge.toNat, discrepancy := d
        side := if side = 1 then .line else .bus, openAmp := clampNat 0 32767 openAmp.toNat
        initialClosed := ⟨posA = 0, posB = 0, posC = 0⟩, initialCharged := spring = 0 }
    let unchanged := x.opening.a = openA.toNat ∧ x.opening.b = openB.toNat ∧ x.opening.c = openC.toNat ∧
      x.closing = close.toNat ∧ x.arcing = arcing.toNat ∧ x.charge = charge.toNat ∧ d = discrepancy.toNat ∧
      x.openAmp = openAmp.toNat
    let position (p : Byte) : Position := if p = 0 then .closed else .opened
    (bad → exec c s = .next (answering h .range [] s)) ∧
    (¬ bad → s.sq.state ≠ .idle → exec c s = .next (answering h .busy [] s)) ∧
    (¬ bad → s.sq.state = .idle →
      exec c s =
        .next (answering h (if unchanged then .ok else .clamped)
          (leBytes 4 x.opening.a ++ leBytes 4 x.opening.b ++ leBytes 4 x.opening.c ++ leBytes 4 x.closing ++
            leBytes 4 x.arcing ++ leBytes 4 x.charge ++ leBytes 4 d ++ [side] ++ leBytes 2 x.openAmp ++
            [posA, posB, posC, spring])
          { s with bs := { s.bs with
              settings := x
              poles := ⟨position posA, position posB, position posC⟩
              spring := if spring = 0 then .charged else .charging none
              discrepancy := .idle } }))

/-- R122. The value that a source gives is told row by row in EveryStepLeavesTheOutputsFollowing. -/
def Obligations.OutsetSetsOneOutput : Prop :=
  ∀ (tag output source bit : Byte) (s : State), listening s →
    let h : HeldRequest := ⟨tag, .outset output source bit⟩
    let bad := output = 0 ∨ 8 < output.toNat ∨ 12 < source.toNat ∨ (source = 11 ∧ 7 < bit.toNat)
    (bad → exec (.outset tag output source bit) s = .next (answering h .range [] s)) ∧
    (¬ bad → s.sq.state ≠ .idle → exec (.outset tag output source bit) s = .next (answering h .busy [] s)) ∧
    (∀ (k : Fin 8) (x : OutSource), ¬ bad → s.sq.state = .idle → output.toNat = k.val + 1 →
      OutSource.ofCode source.toNat = some x →
      let b : Fin 8 := if source = 11 then Fin.ofNat 8 bit.toNat else 0
      exec (.outset tag output source bit) s =
        .next (answering h .ok
          [output, source, BitVec.ofNat 8 b.val,
            if sourceValue s.bs.poles s.bs.spring s.bo.pattern false b x then 1 else 0]
          { s with bo := { s.bo with sources := s.bo.sources.set k x, bits := s.bo.bits.set k b } }))

/-! ### The state table -/

/-- R6, R135, R136, R204: the outcomes of STWRITE, checks 1 to 6 byte by byte, what is brought into range, and the entry
read from the body. -/
def Obligations.StwriteStoresTheEntry : Prop :=
  (∀ (tag : Byte) (body : List Byte) (s0 : State), listening s0 →
    let s := putReceiver .hunt s0
    let h : HeldRequest := ⟨tag, .stwrite body⟩
    let n : Fin 24 := Fin.ofNat 24 (byteAt body 0).toNat
    let fits := 133 ≤ body.length ∧ body.length ≤ 229
    (body.length ≤ 1024 → ¬ fits →
      exec (.stwrite tag body) s0 = .next (answering ⟨tag, .wrongLength 0x20⟩ .length [] s)) ∧
    (fits → entryChecksOk body = false → exec (.stwrite tag body) s0 = .next (answering h .range [] s)) ∧
    (fits → entryChecksOk body = true → entryInUse n s.sq = true →
      exec (.stwrite tag body) s0 = .next (answering h .active [] s)) ∧
    (fits → entryChecksOk body = true → entryInUse n s.sq = false →
      exec (.stwrite tag body) s0 =
        .next (answering h (if entryClamped body then .clamped else .ok) [byteAt body 0]
          { s with st := { s.st with entries := s.st.entries.set n (some (readEntry body)) } }))) ∧
  (∀ body : List Byte,
    let b := bodyByte body
    let w := bodyWord body
    entryChecksOk body = true ↔
      b 0 ≤ 23 ∧ b 1 ≤ 6 ∧ b 2 ≤ 4 ∧ body.length = 133 + 8 * b 1 + 12 * b 2 ∧
      (∀ ch < 8, b (15 + 14 * ch) ≤ 1 ∧ b (16 + 14 * ch) ≤ 2) ∧ b 121 ≤ 1 ∧ (∀ c < 4, b (125 + 2 * c) ≤ 1) ∧
      (∀ n < b 1,
        let o := 133 + 8 * n
        b o ≤ 6 ∧ (b o = 1 → b (o + 1) ≤ 12 ∧ b (o + 2) ≤ 1) ∧ (b o = 4 → b (o + 1) ≤ 8) ∧
          (b o = 5 → b (o + 1) ≤ 3) ∧ (b o = 6 → b (o + 1) ≤ 15) ∧ (b (o + 5) ≤ 23 ∨ b (o + 5) = 255) ∧
          b (o + 6) ≤ 2 ∧ (b (o + 6) ≠ 0 → b (o + 7) ≤ 15)) ∧
      (∀ n < b 2,
        let o := 133 + 8 * b 1 + 12 * n
        b o ≤ 2 ∧ (b o = 0 → b (o + 1) ≤ 12 ∧ b (o + 2) ≤ 1) ∧ b (o + 3) ≤ 1 ∧ w (o + 4) ≤ w (o + 8))) ∧
  (∀ body : List Byte,
    let b := bodyByte body
    let h := bodyHalf body
    let w := bodyWord body
    entryClamped body = true ↔
      (∃ ch < 8,
        let o := 3 + 14 * ch
        32767 < h o ∨ 36000 ≤ h (o + 2) ∨ (0 < w (o + 4) ∧ w (o + 4) < 5000) ∨ 1000000 < w (o + 4) ∨
          32767 < h (o + 8) ∨ 60000 < h (o + 10)) ∨
      1000000 < w 117 ∨ (b 121 = 1 ∧ 36000 ≤ h 122) ∨
      (∃ n < b 1, b (133 + 8 * n) = 0 ∧ 4000000000 < w (134 + 8 * n)) ∨
      (∃ n < b 2,
        let o := 133 + 8 * b 1 + 12 * n
        4000000000 < w (o + 4) ∨ 4000000000 < w (o + 8))) ∧
  (∀ body : List Byte,
    let b := bodyByte body
    let h := bodyHalf body
    let w := bodyWord body
    let x := readEntry body
    (∀ ch : Fin 8, x.channels[ch] = channelGiven body (3 + 14 * ch.val)) ∧
    x.decay = h 115 ∧ x.guard = min 1000000 (w 117) ∧
    x.inception = (if b 121 = 1 then some (h 122 % 36000) else none) ∧ x.pattern.toNat = b 124 ∧
    (∀ c : Fin 4, x.loads[c] = if b (125 + 2 * c.val) = 1 then some (b (126 + 2 * c.val)) else none) ∧
    x.exits.length = b 1 ∧ x.items.length = b 2 ∧
    (∀ n y, x.exits[n]? = some y → exitGiven body (133 + 8 * n) y) ∧
    (∀ n y, x.items[n]? = some y → itemGiven body (133 + 8 * b 1 + 12 * n) y))

/-- R137: the body STREAD returns, written again, is carried out with status OK and leaves the entry as it was. -/
def Obligations.StreadBodyWritesBack : Prop :=
  ∀ body : List Byte, entryChecksOk body = true →
    let back := (readEntry body).bytes (byteAt body 0)
    133 ≤ back.length ∧ back.length ≤ 229 ∧ entryChecksOk back = true ∧ entryClamped back = false ∧
      byteAt back 0 = byteAt body 0 ∧ readEntry back = readEntry body

/-- R137, R138, R139: STREAD, STCLEAR, and the entries in use. -/
def Obligations.StreadAndStclearServeTheTable : Prop :=
  (∀ (tag index : Byte) (s : State), listening s →
    let read : HeldRequest := ⟨tag, .stread index⟩
    let clear : HeldRequest := ⟨tag, .stclear index⟩
    (23 < index.toNat →
      exec (.stread tag index) s = .next (answering read .range [] s) ∧
      exec (.stclear tag index) s = .next (answering clear .range [] s)) ∧
    (∀ n : Fin 24, index.toNat = n.val →
      (s.st.entries[n] = none → exec (.stread tag index) s = .next (answering read .empty [] s)) ∧
      (∀ e, s.st.entries[n] = some e →
        exec (.stread tag index) s = .next (answering read .ok (e.bytes index) s)) ∧
      (entryInUse n s.sq = true → exec (.stclear tag index) s = .next (answering clear .active [] s)) ∧
      (entryInUse n s.sq = false →
        exec (.stclear tag index) s =
          .next (answering clear .ok []
            { s with st := { s.st with entries := s.st.entries.set n none } })))) ∧
  (∀ (n : Fin 24) (q : Sequencer),
    (q.state = .idle → entryInUse n q = false) ∧
    (q.state = .armed ∨ q.state = .gap → ∀ r, q.settings = some r → (entryInUse n q = true ↔ r.first = n)) ∧
    (q.state = .running ∨ q.state = .pointing →
      (entryInUse n q = true ↔ q.current = some n ∨ ∃ x, q.taken = some x ∧ x.target = .state n)))

/-- R142, R143. -/
def Obligations.CntsetSetsOneSource : Prop :=
  ∀ (tag counter source parameter : Byte) (s : State), listening s →
    let h : HeldRequest := ⟨tag, .cntset counter source parameter⟩
    let bad := 3 < counter.toNat ∨ 4 < source.toNat ∨ (source = 1 ∧ (parameter = 0 ∨ 12 < parameter.toNat)) ∨
      (source = 4 ∧ 23 < parameter.toNat)
    let x : CounterSource :=
      if source = 0 then .none else if source = 1 then .edge (Fin.ofNat 13 parameter.toNat)
      else if source = 2 then .tripAccepted else if source = 3 then .closeAccepted
      else .entry (Fin.ofNat 24 parameter.toNat)
    (bad → exec (.cntset tag counter source parameter) s = .next (answering h .range [] s)) ∧
    (¬ bad → s.sq.state ≠ .idle →
      exec (.cntset tag counter source parameter) s = .next (answering h .busy [] s)) ∧
    (∀ c : Fin 4, counter.toNat = c.val → ¬ bad → s.sq.state = .idle →
      exec (.cntset tag counter source parameter) s =
        .next (answering h .ok [counter, source, if source = 1 ∨ source = 4 then parameter else 0]
          { s with st := { s.st with sources := s.st.sources.set c x } }))

/-! ### The sequencer's requests -/

/-- R146: the checks of RUN, in their order. -/
def Obligations.RunIsRefusedInOrder : Prop :=
  ∀ (tag mode : Byte) (repeats : Half) (gap : Word) (trigger : Byte) (second : Word) (first : Byte)
    (frequency : Word) (action : Byte) (s : State), listening s →
    let c : Instr := .run tag mode repeats gap trigger second first frequency action
    let h : HeldRequest := ⟨tag, .run mode repeats gap trigger second first frequency action⟩
    let n : Fin 24 := Fin.ofNat 24 first.toNat
    let formed := mode.toNat ≤ 2 ∧ trigger.toNat ≤ 3 ∧ action.toNat ≤ 1 ∧ first.toNat ≤ 23 ∧
      ¬ (mode = 2 ∧ (trigger = 3 ∨ trigger = 0))
    let ready := s.al.v.state = .ready ∧ s.al.i.state = .ready
    (¬ formed → exec c s = .next (answering h .range [] s)) ∧
    (formed → s.sq.state ≠ .idle → exec c s = .next (answering h .busy [] s)) ∧
    (formed → s.sq.state = .idle → ¬ ready → exec c s = .next (answering h .notReady [] s)) ∧
    (formed → s.sq.state = .idle → ready → s.st.entries[n] = none →
      exec c s = .next (answering h .empty [] s)) ∧
    (formed → s.sq.state = .idle → ready → s.st.entries[n] ≠ none → 638 < s.rs.records.length →
      exec c s = .next (answering h .noRoom [] s)) ∧
    (formed → s.sq.state = .idle → ready → s.st.entries[n] ≠ none → s.rs.records.length ≤ 638 → trigger = 3 →
      (s.tb.epoch = false → exec c s = .next (answering h .noTime [] s)) ∧
      (s.tb.epoch = true → second.toNat ≤ s.tb.second → exec c s = .next (answering h .range [] s)))

/-- R147: a RUN that passes its checks is stored, and starts at once or arms. The flag of a result found while armed
(R151; log 10) begins clear. -/
def Obligations.RunIsArmedOrStarted : Prop :=
  ∀ (tag mode : Byte) (repeats : Half) (gap : Word) (trigger : Byte) (second : Word) (first : Byte)
    (frequency : Word) (action : Byte) (m : RunMode) (t : RunTrigger) (a : OverloadAction) (s : State),
    listening s → RunMode.ofCode mode.toNat = some m → RunTrigger.ofCode trigger.toNat = some t →
    OverloadAction.ofCode action.toNat = some a → first.toNat ≤ 23 →
    ¬ (m = .triggered ∧ (t = .atSecond ∨ t = .immediate)) → s.sq.state = .idle → s.al.v.state = .ready →
    s.al.i.state = .ready → s.st.entries[(Fin.ofNat 24 first.toNat : Fin 24)] ≠ none →
    s.rs.records.length ≤ 638 → (t = .atSecond → s.tb.epoch = true ∧ s.tb.second < second.toNat) →
    let c : Instr := .run tag mode repeats gap trigger second first frequency action
    let h : HeldRequest := ⟨tag, .run mode repeats gap trigger second first frequency action⟩
    let n := if m = .repeated then clampNat 2 1000 repeats.toNat else repeats.toNat
    let g := if m = .repeated then clampNat 0 60000000 gap.toNat else gap.toNat
    let f := clampNat 40000 70000 frequency.toNat
    let r : RunSettings := ⟨m, n, g, t, second.toNat, Fin.ofNat 24 first.toNat, f, a⟩
    let status : Status := if n = repeats.toNat ∧ g = gap.toNat ∧ f = frequency.toNat then .ok else .clamped
    let remainder := match m with
      | .repeated => n
      | .single => 1
      | .triggered => 0
    (t ≠ .immediate →
      exec c s =
        .next (answering h status [1]
          { s with sq := { s.sq with
              state := .armed, settings := some r, remainder := remainder, resultHeld := false } })) ∧
    (t = .immediate →
      let u := putCl { s.cl with inService := some h } s
      let v := startRun s.count false
        { u with sq := { u.sq with settings := some r, remainder := remainder, resultHeld := false } }
      exec c s = .next (settle (pushAnswer ⟨0x30, tag, status, [BitVec.ofNat 8 v.sq.state.code], true⟩ v)))

/-- R164. -/
def Obligations.HaltEndsTheRunOrTheWait : Prop :=
  ∀ (tag : Byte) (s : State), listening s →
    let h : HeldRequest := ⟨tag, .halt⟩
    (s.sq.state = .running ∨ s.sq.state = .pointing →
      exec (.halt tag) s =
        .next (settle (pushAnswer ⟨0x31, tag, .ok, [], true⟩
          (runEnd .halted (putCl { s.cl with inService := some h } s))))) ∧
    (s.sq.state = .armed ∨ s.sq.state = .gap →
      exec (.halt tag) s =
        .next (answering h .ok []
          { s with sq := { s.sq with state := .idle, settings := none, gapEnd := none } })) ∧
    (s.sq.state = .idle → exec (.halt tag) s = .next (answering h .order [] s))

/-- R148, R150, R163. -/
def Obligations.GoStartsOrIsDelivered : Prop :=
  ∀ (tag : Byte) (s : State), listening s →
    let h : HeldRequest := ⟨tag, .go⟩
    let u := putCl { s.cl with inService := some h } s
    (s.sq.state = .idle ∨ s.sq.state = .gap ∨ s.sq.state = .pointing →
      exec (.go tag) s = .next (answering h .order [] s)) ∧
    (∀ r, s.sq.state = .armed → s.sq.settings = some r →
      (r.trigger ≠ .go → exec (.go tag) s = .next (answering h .order [] s)) ∧
      (r.trigger = .go → s.rs.records.length ≤ 638 →
        exec (.go tag) s =
          .next (settle (pushAnswer ⟨0x32, tag, .ok, [], true⟩ (startRun s.count false u)))) ∧
      (r.trigger = .go → 638 < s.rs.records.length →
        exec (.go tag) s =
          .next (settle (pushAnswer ⟨0x32, tag, .noRoom, [], true⟩
            (waitEnded u))))) ∧
    (s.sq.state = .running →
      exec (.go tag) s =
        .next (settle (pushAnswer ⟨0x32, tag, .ok, [], true⟩
          (judgeEvent (fun t => decide (t = .go)) s.now u))))

/-! ### The time base -/

/-- R23. -/
def Obligations.TcalStartsACalibration : Prop :=
  ∀ (tag k : Byte) (s : State), listening s →
    let h : HeldRequest := ⟨tag, .tcal k⟩
    let n := clampNat 1 64 k.toNat
    let status : Status := if 1 ≤ k.toNat ∧ k.toNat ≤ 64 then .ok else .clamped
    (s.tb.state ≠ .calibrating →
      exec (.tcal tag k) s =
        .next (answering h status []
          (putTb { s.tb with state := .calibrating, cal := some ⟨n, s.tb.state, .waiting, 0⟩ } s))) ∧
    (∀ x, s.tb.state = .calibrating → s.tb.cal = some x →
      exec (.tcal tag k) s =
        .next (answering h status []
          (putTb { s.tb with state := .calibrating, cal := some ⟨n, x.prior, .waiting, 0⟩ } s)))

/-- R29, and the request instant of R20: TSEC. -/
def Obligations.TcalxAbortsAndTsecArms : Prop :=
  ∀ (tag : Byte) (n : Word) (s : State), listening s →
    (∀ x, s.tb.state = .calibrating → s.tb.cal = some x →
      exec (.tcalx tag) s =
        .next (answering ⟨tag, .tcalx⟩ .ok [] (putTb { s.tb with state := x.prior, cal := none } s))) ∧
    (s.tb.state ≠ .calibrating → exec (.tcalx tag) s = .next (answering ⟨tag, .tcalx⟩ .order [] s)) ∧
    exec (.tsec tag n) s =
      .next (answering ⟨tag, .tsec n⟩ .ok [] (putTb { s.tb with armedSecond := some n.toNat } s))

/-- R16, R17, R19, R22, R24, R149, R150: a PPS edge with no second armed, outside the closing of a calibration, with or
without an AT_SECOND run armed (`markHanded`). The order of the effects of one mark is log 11. -/
def Obligations.PpsEdgeIsAcceptedOrRejected : Prop :=
  (∀ (mark : Nat) (internal : Bool) (s : State), ∃ u, markHanded mark internal s u) ∧
  ∀ s : State, s.resetLine = false → s.tb.armedSecond = none →
    let inWindow := s.tb.prevMark = none ∨
      ∃ p, s.tb.prevMark = some p ∧ p + s.tb.interval ≤ s.count + 5000 ∧ s.count ≤ p + s.tb.interval + 5000
    let second := if s.tb.second = 4294967295 then 0 else s.tb.second + 1
    let marked : TimeBase := { s.tb with
      prevMark := some s.count, second := second, internalRun := 0, pulseRun := min 2 (s.tb.pulseRun + 1) }
    (∀ u, inWindow →
      (s.tb.state = .free ∨ s.tb.state = .locked ∨ (s.tb.state = .holdover ∧ s.tb.pulseRun = 0) →
        markHanded s.count false (putTb marked s) u → exec .ppsEdge s = .next (settle (withInterval u))) ∧
      (s.tb.state = .holdover → 1 ≤ s.tb.pulseRun → s.tb.pulseRun ≤ 2 →
        markHanded s.count false (raiseNotice .timebase
          (offerAt s.count (.time .relocked none (some second)) (putTb { marked with state := .locked } s))) u →
        exec .ppsEdge s = .next (settle (withInterval u))) ∧
      (∀ x, s.tb.state = .calibrating → s.tb.cal = some x →
        (x.phase = .waiting →
          markHanded s.count false (putTb { marked with cal := some { x with phase := .counting s.count } } s) u →
          exec .ppsEdge s = .next (settle (withInterval u))) ∧
        (∀ opening, x.phase = .counting opening → x.pulses + 1 ≠ x.k →
          markHanded s.count false (putTb { marked with cal := some { x with pulses := x.pulses + 1 } } s) u →
          exec .ppsEdge s = .next (settle (withInterval u))))) ∧
    (¬ inWindow → s.tb.state ≠ .calibrating →
      exec .ppsEdge s = .next (settle (putTb { s.tb with pulseRun := 0 } s)))

/-- R20, R24, R32, R149, R150: the edge under an armed second, with its EPOCH_SET record and notice, with or without an
AT_SECOND run armed. The record's place before the other effects of the mark is log 11. -/
def Obligations.ArmedSecondIsTakenAtTheNextEdge : Prop :=
  ∀ (n : Nat) (s : State), s.resetLine = false → s.tb.armedSecond = some n →
    let accepted := s.tb.accepts s.count
    let run := if accepted then min 2 (s.tb.pulseRun + 1) else 1
    let placed : TimeBase := { s.tb with prevMark := some s.count, second := n, epoch := true, armedSecond := none }
    let epoch := raiseNotice .timebase (offerAt s.count (.time .epochSet none (some n)) (putTb placed s))
    let marked : TimeBase := { placed with internalRun := 0, pulseRun := run }
    (∃ t, exec .ppsEdge s = .next t ∧ t.tb.second = n ∧ t.tb.epoch = true ∧ t.tb.armedSecond = none ∧
      t.tb.prevMark = some s.count ∧ t.tb.internalRun = 0 ∧ t.tb.pulseRun = run) ∧
    (∀ u,
      (s.tb.state = .free ∨ s.tb.state = .locked ∨
          (s.tb.state = .holdover ∧ (accepted = false ∨ s.tb.pulseRun = 0)) →
        markHanded s.count false (putTb marked epoch) u → exec .ppsEdge s = .next (settle (withInterval u))) ∧
      (s.tb.state = .holdover → accepted = true → 1 ≤ s.tb.pulseRun → s.tb.pulseRun ≤ 2 →
        markHanded s.count false (raiseNotice .timebase
          (offerAt s.count (.time .relocked none (some n)) (putTb { marked with state := .locked } epoch))) u →
        exec .ppsEdge s = .next (settle (withInterval u))) ∧
      (∀ x, s.tb.state = .calibrating → s.tb.cal = some x →
        (x.phase = .waiting →
          markHanded s.count false (putTb { marked with cal := some { x with phase := .counting s.count } } epoch) u →
          exec .ppsEdge s = .next (settle (withInterval u))) ∧
        (∀ opening, accepted = true → x.phase = .counting opening → x.pulses + 1 ≠ x.k →
          markHanded s.count false (putTb { marked with cal := some { x with pulses := x.pulses + 1 } } epoch) u →
          exec .ppsEdge s = .next (settle (withInterval u)))))

/-- R16: E after every mark, with the correction then in force. A run that the mark itself starts may adopt a pending
correction before E is computed: the model's order (log 11). -/
def Obligations.ExpectedIntervalFollowsTheCorrection : Prop :=
  (∀ s : State, s.resetLine = false → s.tb.armedSecond.isSome ∨ s.tb.accepts s.count = true →
    ∃ t, exec .ppsEdge s = .next t ∧ t.tb.prevMark = some s.count ∧
      t.tb.interval = (10000000 + roundDiv t.tb.c 100).toNat) ∧
  (∀ (p : Nat) (s : State), s.resetLine = false → s.tb.prevMark = some p → s.count = p + s.tb.interval + 5001 →
    ∃ t, exec .internalMark s = .next t ∧ t.tb.prevMark = some (p + s.tb.interval) ∧
      t.tb.interval = (10000000 + roundDiv t.tb.c 100).toNat)

/-- R18, R19, R21, R149, R150: the internal mark, outside a calibration, with or without an AT_SECOND run armed. The order
of the effects of one mark is log 11. -/
def Obligations.InternalMarkIsPlacedAtTheClosing : Prop :=
  ∀ (p : Nat) (s u : State), s.resetLine = false → s.tb.prevMark = some p → s.count = p + s.tb.interval + 5001 →
    let mark := p + s.tb.interval
    let second := if s.tb.second = 4294967295 then 0 else s.tb.second + 1
    let marked : TimeBase := { s.tb with
      prevMark := some mark, second := second, pulseRun := 0, internalRun := min 2 (s.tb.internalRun + 1) }
    (s.tb.state = .free ∨ s.tb.state = .holdover ∨ (s.tb.state = .locked ∧ s.tb.internalRun = 0) →
      markHanded mark true (putTb marked s) u → exec .internalMark s = .next (settle (withInterval u))) ∧
    (s.tb.state = .locked → 1 ≤ s.tb.internalRun →
      markHanded mark true (raiseNotice .timebase
        (offerAt mark (.time .holdover none (some second)) (putTb { marked with state := .holdover } s))) u →
      exec .internalMark s = .next (settle (withInterval u)))

/-- R20, R24, R25, R28, R149, R150: the pulse that closes a calibration, as PPS_EDGE and as CLOSING_PULSE (log 4), with or
without a second armed and with or without an AT_SECOND run armed. That a result found in ARMED is also noted is the
model's (log 10); so is the place of EPOCH_SET before the other effects of the mark (log 11). -/
def Obligations.ClosingPulseGivesTheCorrection : Prop :=
  ∀ (k opening n : Nat) (prior : TbState) (s u : State), s.resetLine = false →
    s.tb.accepts s.count = true → s.tb.state = .calibrating → s.tb.cal = some ⟨k, prior, .counting opening, n⟩ →
    n + 1 = k → opening ≤ s.count →
    let next := if s.tb.second = 4294967295 then 0 else s.tb.second + 1
    let second := s.tb.armedSecond.getD next
    let placed : TimeBase := { s.tb with prevMark := some s.count, second := second, epoch := true, armedSecond := none }
    let epoch := raiseNotice .timebase (offerAt s.count (.time .epochSet none (some second)) (putTb placed s))
    let base := if s.tb.armedSecond.isSome then epoch else s
    let marked : TimeBase := { s.tb with
      prevMark := some s.count, second := second, internalRun := 0, pulseRun := min 2 (s.tb.pulseRun + 1), cal := none
      epoch := s.tb.epoch || s.tb.armedSecond.isSome, armedSecond := none }
    let result := roundDiv (100 * (((s.count - opening : Nat) : Int) - 10000000 * (k : Int))) k
    let held : Sequencer := if s.sq.state = .armed then { s.sq with resultHeld := true } else s.sq
    let found (event : TimeEvent) (x : TimeBase) (q : Sequencer) : State :=
      raiseNotice .timebase (offerAt s.count (.time event (some result) none) (putTb x { base with sq := q }))
    exec .closingPulse s = exec .ppsEdge s ∧
    (-100000 ≤ result → result ≤ 100000 → s.sq.state = .idle →
      exec .ppsEdge s =
        .next (settle (withInterval
          (found .calDone { marked with state := .locked, c := result, pendingC := none } s.sq)))) ∧
    (-100000 ≤ result → result ≤ 100000 → s.sq.state ≠ .idle →
      markHanded s.count false (found .calDone { marked with state := .locked, pendingC := some result } held) u →
      exec .ppsEdge s = .next (settle (withInterval u))) ∧
    (¬ (-100000 ≤ result ∧ result ≤ 100000) →
      markHanded s.count false (found .calRejected { marked with state := prior } s.sq) u →
      exec .ppsEdge s = .next (settle (withInterval u)))

/-- R27, R32, R149, R150: what fails a calibration, the state after it, its records and its one notice, with or without an
AT_SECOND run armed. Which mark the order of records of a realigning mark follows is log 11. -/
def Obligations.CalibrationFailsByMarkOrEdge : Prop :=
  ∀ (x : Calibration) (s : State), s.resetLine = false → s.tb.state = .calibrating → s.tb.cal = some x →
    (s.tb.armedSecond = none → s.tb.accepts s.count = false →
      exec .ppsEdge s =
        .next (settle (raiseNotice .timebase (offerAt s.count (.time .calFailed none none)
          (putTb { s.tb with pulseRun := 0, cal := none, state := x.prior } s))))) ∧
    (∀ n opening, s.tb.armedSecond = some n → s.tb.accepts s.count = false → x.phase = .counting opening →
      (∃ t, exec .ppsEdge s = .next t ∧ t.tb.cal = none ∧ t.tb.state = x.prior) ∧
      (let placed : TimeBase := { s.tb with prevMark := some s.count, second := n, epoch := true, armedSecond := none }
        let epoch := raiseNotice .timebase (offerAt s.count (.time .epochSet none (some n)) (putTb placed s))
        ∀ u, markHanded s.count false (raiseNotice .timebase (offerAt s.count (.time .calFailed none none)
            (putTb { placed with internalRun := 0, pulseRun := 1, cal := none, state := x.prior } epoch))) u →
          exec .ppsEdge s = .next (settle (withInterval u)))) ∧
    (∀ p, s.tb.prevMark = some p → s.count = p + s.tb.interval + 5001 →
      (∃ t, exec .internalMark s = .next t ∧ t.tb.cal = none ∧
        t.tb.state = (if x.prior = .free then .free else .holdover)) ∧
      (let mark := p + s.tb.interval
        let second := if s.tb.second = 4294967295 then 0 else s.tb.second + 1
        let failed := offerAt mark (.time .calFailed none none)
          (putTb { s.tb with
            prevMark := some mark, second := second, pulseRun := 0, internalRun := min 2 (s.tb.internalRun + 1)
            cal := none, state := if x.prior = .free then .free else .holdover } s)
        let told := if x.prior = .locked then offerAt mark (.time .holdover none (some second)) failed else failed
        ∀ u, markHanded mark true (raiseNotice .timebase told) u →
          exec .internalMark s = .next (settle (withInterval u))))

/-- R31. -/
def Obligations.RunTimeIsExact : Prop :=
  (∀ (t0 : Nat) (c : Int) (x y : Nat), x ≤ y → runTime t0 c x ≤ runTime t0 c y) ∧
  (∀ (t0 : Nat) (c : Int) (x : Nat), x ≤ t0 → runTime t0 c x = 0) ∧
  (∀ t0 n : Nat, runTime t0 0 (t0 + 500 * n) = 50 * n) ∧
  (∀ (t0 : Nat) (c : Int) (x : Nat), t0 ≤ x → -100000 ≤ c → c ≤ 100000 →
    (runTime t0 c x : Int) * (1000000000 + c) ≤ ((x : Int) - t0) * 100000000 ∧
    ((x : Int) - t0) * 100000000 < ((runTime t0 c x : Int) + 1) * (1000000000 + c))

/-! ### Resets -/

/-- R14, R15, R33, R51, R79, R92, R120, R129, R144, R171, R186, R201, with every value. Log 22: what the model keeps
outside the part. Log 21 (the model's own values): lastStop, nextSample, lastGrid, lastFrame, the lines, and free. -/
def Obligations.HardwareResetsAndTheResetLine : Prop :=
  (∀ s : State,
    let after (line : Bool) : State := { State.reset with
      resetLine := line, contactLines := s.contactLines, syncLine := s.syncLine, free := s.free, pending := s.pending }
    exec .powerOn s = .next (after s.resetLine) ∧ exec .resetLineAsserted s = .next (after true) ∧
    exec .resetLineReleased s = .next { s with resetLine := false }) ∧
  (∀ (c : Instr) (s : State), s.resetLine = true → c ≠ .powerOn → c ≠ .resetLineAsserted →
    c ≠ .resetLineReleased → exec c s = .next s) ∧
  State.reset.count = 0 ∧ State.reset.resetLine = false ∧ State.reset.contactLines = 0 ∧
  State.reset.syncLine = false ∧ State.reset.free = 0 ∧ State.reset.pending = [] ∧
  State.reset.cl =
    { receiver := .hunt, lastStop := 0, inService := none, holding := none, answers := [], notice := none
      line := none } ∧
  State.reset.tb =
    { prevMark := none, interval := 10000000, internalRun := 0, pulseRun := 0, second := 0, epoch := false
      armedSecond := none, c := 0, pendingC := none, state := .free, cal := none, latch := none } ∧
  (∀ k : Fin 12, State.reset.ci.inputs[k] =
    { mode := .off, polarity := .activeClosed, role := .timing, window := 2000, history := ⟨false, false, false⟩
      settled := false, qualifier := .steady, glitches := 0, bounces := 0, pendingEdge := none }) ∧
  State.reset.ci.sync =
    { history := ⟨false, false, false⟩, settled := false, qualifier := .steady, glitches := 0, pendingEdge := none } ∧
  State.reset.ci.nextSample = 0 ∧
  (∀ ch : Fin 8, State.reset.ws.settings[ch] = ⟨32767, 32768, 0⟩ ∧ State.reset.ws.codes[ch] = 0 ∧
    State.reset.ws.live[ch] =
      { theta := 0, dTheta := 0, aFix := 0, rampStep := 0, rampTarget := 0, d := 0, sPrev := 0, clip := false }) ∧
  State.reset.ws.ieMode = .independent ∧ State.reset.ws.decay = 0 ∧ State.reset.ws.r = 0 ∧
  State.reset.ws.dRef = 0 ∧ State.reset.ws.nextGrid = 0 ∧ State.reset.ws.lastGrid = none ∧
  (∀ g, State.reset.al.get g =
    { state := .off, frameNumber := 255, outstanding := none, acked := 0, missed := 0, overRun := .replicate 4 0
      episode := .replicate 4 false, receiver := [], lastFrame := none }) ∧
  State.reset.bs =
    { settings :=
        { opening := ⟨30000, 30000, 30000⟩, closing := 60000, arcing := 20000, charge := 3000000, discrepancy := 0
          side := .bus, openAmp := 0, initialClosed := ⟨true, true, true⟩, initialCharged := true }
      poles := ⟨.closed, .closed, .closed⟩, spring := .charged, discrepancy := .idle, active := false } ∧
  (∀ k : Fin 8, State.reset.bo.sources[k] = .fixedOpen ∧ State.reset.bo.bits[k] = 0 ∧
    State.reset.bo.outputs[k] = false) ∧
  State.reset.bo.pattern = 0 ∧ (∀ n : Fin 24, State.reset.st.entries[n] = none) ∧
  (∀ c : Fin 4, State.reset.st.sources[c] = .none) ∧
  State.reset.sq =
    { state := .idle, settings := none, remainder := 0, runNumber := 0, current := none, taken := none
      guard := none, visits := .replicate 24 0, visited := 0, marks := 0, counters := .replicate 4 0
      gapEnd := none, lastOutcome := none, entrySample := false, resultHeld := false } ∧
  State.reset.asmt = { visit := none, pass := 0, nonPass := 0 } ∧
  State.reset.rs = { records := [], nextSeq := 1, window := none, fillArmed := true }

/-! ### The contact inputs -/

/-- R34, R36, R37, R39, R49: one contact sample, and all of the rest left but for the end of the step. That the levels
stay on the lines is the model's choice (log 5), and the first sample's count (log 21). -/
def Obligations.ContactSampleEntersEveryHistory : Prop :=
  ∀ (contacts : BitVec 12) (sync : Bool) (s : State), s.resetLine = false → s.count = s.ci.nextSample →
    ∃ ci : ContactInputs,
      exec (.contactSample contacts sync) s =
        .next (settle { s with contactLines := contacts, syncLine := sync, ci := ci }) ∧
      ci.nextSample = s.count + 100 ∧
      (∀ k : Fin 12,
        let x := s.ci.inputs[k]
        let raw := contacts.getLsbD k.val
        let level := if x.polarity = .activeClosed then raw else !raw
        let y : ContactInput := { x with history := ⟨raw, x.history.newest, x.history.middle⟩ }
        (x.mode ≠ .contact → ci.inputs[k] = y) ∧
        (x.mode = .contact → x.qualifier = .steady →
          ci.inputs[k] =
            { y with qualifier := if level = x.settled then .steady else .candidate s.count [level] }) ∧
        (∀ first samples, x.mode = .contact → x.qualifier = .candidate first samples → samples.length < 3 →
          ci.inputs[k] = { y with qualifier := .candidate first (samples ++ [level]) }) ∧
        (∀ e, x.mode = .contact → x.qualifier = .window e →
          ci.inputs[k] =
            { y with
              bounces := if raw = x.history.newest ∨ e ≤ s.count then x.bounces else min 255 (x.bounces + 1) })) ∧
      (let x := s.ci.sync
        let y : SyncInput := { x with history := ⟨sync, x.history.newest, x.history.middle⟩ }
        (x.qualifier = .steady →
          ci.sync = { y with qualifier := if sync = x.settled then .steady else .candidate s.count [sync] }) ∧
        (∀ first samples, x.qualifier = .candidate first samples → samples.length < 3 →
          ci.sync = { y with qualifier := .candidate first (samples ++ [sync]) }))

/-- R37, R38, R43, R46, R47, R49, R50, R117, R148: the third candidate sample; and what writing a pending record offers. The
model's own: the pending record stands while its edge is delivered (log 16), the edge time of a candidate that began before
the run start (log 32), and that an edge that commands the breaker at the count of a sample 0 not yet taken comes after the
whole grid instant, in one step, so that no command has acted at sample 0 (R117; log 43). -/
def Obligations.QualificationJudgesTheCandidate : Prop :=
  (∀ (k : Fin 12) (first : Nat) (samples : List Bool) (s : State), s.resetLine = false →
    s.ci.inputs[k].qualifier = .candidate first samples → samples.length = 3 →
    let x := s.ci.inputs[k]
    let n := (samples.filter (fun l => l ≠ x.settled)).length
    let direction := if x.settled then Direction.inactive else Direction.active
    let edge (p : Option PendingEdge) : ContactInput := { x with
      settled := !x.settled, glitches := 0, bounces := 0, pendingEdge := p
      qualifier := if x.window = 0 then .steady else .window (s.count + 10 * x.window) }
    let p : PendingEdge := ⟨direction, s.runTimeAt first, n = 2, x.glitches, false⟩
    let u := deliverEdge k.succ x.role direction (s.runTimeAt first) (putInput k (edge (some p)) s)
    let waits := x.settled = false ∧ commandWaits k s
    (n ≤ 1 →
      exec (.qualification k.succ) s =
        .next (settle (putInput k { x with qualifier := .steady, glitches := min 255 (x.glitches + 1) } s))) ∧
    (2 ≤ n → s.inRun = false →
      exec (.qualification k.succ) s = .next (settle (putInput k (edge none) s))) ∧
    (2 ≤ n → s.inRun = true → ¬ waits → 0 < x.window → exec (.qualification k.succ) s = .next (settle u)) ∧
    (2 ≤ n → s.inRun = true → ¬ waits → x.window = 0 →
      exec (.qualification k.succ) s = .next (settle (writePending u.now u k))) ∧
    (2 ≤ n → waits →
      exec .gridInstant s = .next (settle (gridInstant s)) ∧ ¬ commandWaits k (gridInstant s) ∧
        exec (.qualification k.succ) s = exec (.qualification k.succ) (gridInstant s))) ∧
  (∀ (first : Nat) (samples : List Bool) (s : State), s.resetLine = false →
    s.ci.sync.qualifier = .candidate first samples → samples.length = 3 →
    let x := s.ci.sync
    let n := (samples.filter (fun l => l ≠ x.settled)).length
    let flipped (p : Option PendingEdge) : State :=
      putSync { x with settled := !x.settled, glitches := 0, qualifier := .steady, pendingEdge := p } s
    let edge : PendingEdge := ⟨.active, s.runTimeAt first, n = 2, x.glitches, false⟩
    let recorded (t : Nat) (u : State) : State :=
      offerRun t (.inputEdge 0 .active edge.edgeTime edge.noise edge.glitches 0 false)
        (putSync { u.ci.sync with pendingEdge := none } u)
    let waits := ∃ r, s.sq.settings = some r ∧ r.trigger = .sync
    (n ≤ 1 →
      exec (.qualification 0) s =
        .next (settle (putSync { x with qualifier := .steady, glitches := min 255 (x.glitches + 1) } s))) ∧
    (2 ≤ n → x.settled = true → exec (.qualification 0) s = .next (settle (flipped x.pendingEdge))) ∧
    (2 ≤ n → x.settled = false →
      (s.sq.state = .idle ∨ s.sq.state = .gap ∨ (s.sq.state = .armed ∧ ¬ waits) →
        exec (.qualification 0) s = .next (settle (flipped none))) ∧
      (s.sq.state = .pointing → exec (.qualification 0) s = .next (settle (recorded s.now (flipped none)))) ∧
      (s.sq.state = .running →
        let u := judgeEvent (fun t => decide (t = .sync)) edge.edgeTime (flipped (some edge))
        (u.inRun = true → exec (.qualification 0) s = .next (settle (recorded u.now u))) ∧
        (u.inRun = false →
          exec (.qualification 0) s = .next (settle (putSync { u.ci.sync with pendingEdge := none } u)))) ∧
      (s.sq.state = .armed → waits → s.rs.records.length ≤ 638 →
        let u := startRun first false (flipped (some edge))
        (u.inRun = true → exec (.qualification 0) s = .next (settle (recorded u.now u))) ∧
        (u.inRun = false →
          exec (.qualification 0) s = .next (settle (putSync { u.ci.sync with pendingEdge := none } u)))) ∧
      (s.sq.state = .armed → waits → 638 < s.rs.records.length →
        exec (.qualification 0) s =
          .next (settle (putSync { (waitEnded (flipped (some edge))).ci.sync with pendingEdge := none }
            (waitEnded (flipped (some edge)))))))) ∧
  (∀ (t : Nat) (k : Fin 12) (input : Fin 13) (s : State), input.val = k.val + 1 →
    let x := s.ci.inputs[k]
    (x.pendingEdge = none → writePending t s k = s) ∧
    (∀ e, x.pendingEdge = some e →
      writePending t s k =
        offerRun t (.inputEdge input e.direction e.edgeTime e.noise e.glitches x.bounces e.injected)
          { s with ci := { s.ci with inputs := s.ci.inputs.set k { x with pendingEdge := none } } }))

/-- R39, R40, R47, R48, R117: the window-end sample, whose bounce is counted first. The recheck edge's pending record stands
while the edge is delivered: log 16; the record of the edge before is written ahead of that delivery: log 38; a recheck edge
that commands the breaker at the count of a sample 0 not yet taken comes after the whole grid instant, in one step: log
43. -/
def Obligations.WindowEndWritesAndRechecks : Prop :=
  ∀ (k : Fin 12) (e : Nat) (s : State), s.resetLine = false → s.ci.inputs[k].qualifier = .window e →
    e ≤ s.count → s.ci.nextSample = s.count + 100 →
    let x := s.ci.inputs[k]
    let b := if x.history.newest = x.history.middle then x.bounces else min 255 (x.bounces + 1)
    let y : ContactInput := { x with bounces := b, pendingEdge := none }
    let u := match x.pendingEdge with
      | some p =>
        offerRun s.now (.inputEdge k.succ p.direction p.edgeTime p.noise p.glitches b p.injected) (putInput k y s)
      | none => putInput k y s
    let level := presentMajority x.polarity x.history
    let direction := if level then Direction.active else Direction.inactive
    let p : PendingEdge := ⟨direction, s.now, true, x.glitches, false⟩
    (level = x.settled →
      exec (.windowEnd k.succ) s = .next (settle (putInput k { y with qualifier := .steady } u))) ∧
    (level ≠ x.settled → x.settled = false → commandWaits k s →
      exec .gridInstant s = .next (settle (gridInstant s)) ∧ ¬ commandWaits k (gridInstant s) ∧
        exec (.windowEnd k.succ) s = exec (.windowEnd k.succ) (gridInstant s)) ∧
    (level ≠ x.settled → ¬ (x.settled = false ∧ commandWaits k s) →
      exec (.windowEnd k.succ) s =
        .next (settle (deliverEdge k.succ x.role direction s.now
          (putInput k
            { y with
              settled := !x.settled, glitches := 0, bounces := 0
              pendingEdge := if s.inRun then some p else none
              qualifier := if x.window = 0 then .steady else .window (s.count + 10 * x.window) } u))))

/-! ### The breaker simulator -/

/-- R43, R44, R45, R99, R100, R101, R105, R106, R107, R113, R114, R157, R173, R178: what a delivered edge gives each of its consumers,
what a trip and a close command do to positions and spring, with their records, and how a command's events are handed
on; of the breaker events, the assessment unit receives ANY_OPEN and ALL_CLOSED alone (R173, R178). The model's own: the
consumers' order is free (log 3), a command's breaker events reach the assessment unit after its counted event and before
the exits are judged (log 37), where several
poles open at once, ANY_OPEN is given exactly when none was OPEN before (log 17), and a command's records are offered with
the new positions and spring while the outputs follow after them, so that a FILL snapshot of such a record shows the new
position or spring beside the outputs of before (log 35; R96, R121 and R125 do not order the two). -/
def Obligations.CommandsMoveTheBreaker : Prop :=
  (∀ (te : Nat) (p : Pole) (s : State),
    (s.bs.poles.get p = .closed →
      tripPole te s p =
        offerRun te (.breaker (.pole p) .tripAccepted none) (putPole p (.tripping te) s)) ∧
    (∀ start, s.bs.poles.get p = .closing start →
      tripPole te s p =
        offerRun te (.breaker (.pole p) .tripFree (some (te - start))) (putPole p .opened s)) ∧
    (s.bs.poles.get p = .opened ∨ (∃ a, s.bs.poles.get p = .tripping a) ∨ (∃ a, s.bs.poles.get p = .arcing a) →
      tripPole te s p = s)) ∧
  (∀ (te : Nat) (s : State),
    let moving (x : Position) : Prop := (∃ a, x = .tripping a) ∨ (∃ a, x = .arcing a) ∨ (∃ a, x = .closing a)
    let anyMoving := ∃ p, moving (s.bs.poles.get p)
    let someOpen := ∃ p, s.bs.poles.get p = .opened
    (s.bs.spring ≠ .charged →
      closeBreaker te s = offerRun te (.breaker .mechanism .closeBlocked none) s) ∧
    (s.bs.spring = .charged → anyMoving ∨ ¬ someOpen →
      closeBreaker te s = offerRun te (.breaker .mechanism .closeRefused none) s) ∧
    (s.bs.spring = .charged → ¬ anyMoving → someOpen →
      let close (x : Position) : Position := if x = .opened then .closing te else x
      closeBreaker te s =
        offerRun te (.breaker .mechanism .closeAccepted none)
          { s with bs := { s.bs with
              poles := ⟨close s.bs.poles.a, close s.bs.poles.b, close s.bs.poles.c⟩
              spring := .charging (some te) } }) ∧
    -- the close command of an edge, with its event or its counted event
    (s.inRun = true → ∀ input,
      let done (counted : Option CounterSource) (events : List BreakerEvent) : State :=
        handCommandEvents counted events te (refreshOutputs true (closeBreaker te s))
      (s.bs.spring ≠ .charged → consumeEdge input .close .active te s .breaker = done none [.closeBlocked]) ∧
      (s.bs.spring = .charged → anyMoving ∨ ¬ someOpen →
        consumeEdge input .close .active te s .breaker = done none [.closeRefused]) ∧
      (s.bs.spring = .charged → ¬ anyMoving → someOpen →
        consumeEdge input .close .active te s .breaker = done (some .closeAccepted) []))) ∧
  (∀ (input : Fin 13) (role : Role) (direction : Direction) (te : Nat) (s : State),
    (s.inRun = false → deliverEdge input role direction te s = s ∧
      ∀ x, consumeEdge input role direction te s x = s) ∧
    (s.inRun = true → ∃ order : List Consumer, order.Perm [.breaker, .assessment, .sequencer] ∧
      deliverEdge input role direction te s =
        order.foldl (consumeEdge input role direction te) { s with free := s.free + 1 })) ∧
  (∀ (input : Fin 13) (te : Nat) (s : State), s.inRun = true →
    let trip (poles : List Pole) (t : State) : State :=
      handCommandEvents (if ∃ p ∈ poles, s.bs.poles.get p = .closed then some .tripAccepted else none)
        (poleEvents s.bs.poles t.bs.poles) te (refreshOutputs true t)
    consumeEdge input .tripA .active te s .breaker = trip [.a] (tripPole te s .a) ∧
    consumeEdge input .tripB .active te s .breaker = trip [.b] (tripPole te s .b) ∧
    consumeEdge input .tripC .active te s .breaker = trip [.c] (tripPole te s .c) ∧
    consumeEdge input .trip3P .active te s .breaker =
      trip [.a, .b, .c] (tripPole te (tripPole te (tripPole te s .a) .b) .c) ∧
    consumeEdge input .timing .active te s .breaker = s ∧
    (∀ role,
      consumeEdge input role .inactive te s .breaker = s ∧
      (∀ direction, consumeEdge input role direction te s .assessment =
        assessEvent (.edge input direction) te s.now s) ∧
      consumeEdge input role .inactive te s .sequencer =
        judgeEvent (fun t => decide (t = .edge input .inactive)) te s ∧
      (∃ m : Trigger → Bool,
        consumeEdge input role .active te s .sequencer =
          judgeEvent m te { s with sq := { s.sq with
            counters := .ofFn fun c =>
              if s.st.sources[c] = .edge input then s.sq.counters[c] - 1 else s.sq.counters[c] } } ∧
        ∀ t, m t = true ↔ t = .edge input .active ∨
          ∃ c : Fin 4, t = .count c ∧ s.st.sources[c] = .edge input ∧ s.sq.counters[c] = 1))) ∧
  (∀ (counted : Option CounterSource) (events : List BreakerEvent) (te : Nat) (s : State),
    let u : State := { s with sq := { s.sq with
      counters := .ofFn fun c =>
        if counted = some s.st.sources[c] then s.sq.counters[c] - 1 else s.sq.counters[c] } }
    ∃ m : Trigger → Bool,
      handCommandEvents counted events te s = judgeEvent m te (assessBreakerEvents events te s.now u) ∧
      ∀ t, m t = true ↔ (∃ b ∈ events, t = .breaker b) ∨
        ∃ c : Fin 4, t = .count c ∧ counted = some s.st.sources[c] ∧ s.sq.counters[c] = 1) ∧
  (∀ (before after : PerPole Position),
    let opens (p : Pole) : Prop := after.get p = .opened ∧ before.get p ≠ .opened
    (∀ p, .poleOpen p ∈ poleEvents before after ↔ opens p) ∧
    (.anyOpen ∈ poleEvents before after ↔ (∃ p, opens p) ∧ ∀ p, before.get p ≠ .opened) ∧
    (.allOpen ∈ poleEvents before after ↔ (∃ p, opens p) ∧ ∀ p, after.get p = .opened)) ∧
  (∀ (events : List BreakerEvent) (time head : Nat) (s : State),
    assessBreakerEvents events time head s =
      events.foldl (fun u b =>
        if b = .anyOpen then assessEvent .anyOpen time head u
        else if b = .allClosed then assessEvent .allClosed time head u
        else u) s)

/-- R97, R102, R103, R104, R108, R109, R112, R113, R114, R115: the timed operations that end at a sample and the arc's
interruption, their positions after it, their records, that a stage leaves a pole in any other position as it is, and the
breaker events of the sample, told by the positions before and after it and in the order of R113's table. That ANY_OPEN is
given where several poles open at once and none was OPEN before is log 17; that the CLIP records stand between stages 4
and 5 is log 14. A run end resolves a pole under way to OPEN (R118), and a pole that closes may be tripped by the
discrepancy timer at the same sample. That CONTACTS_PARTED, INTERRUPTED_FORCED, CLOSING_EXPIRY and SPRING_CHARGED are the
whole grid instant is the model's choice (log 4). At an instant that loses a link too, the operation ends before the fault
ends the run: the sample comes before the link's settling (log 15). Each stage offers its record with the new position or
spring, and the outputs follow once after all of the sample's records, so that a FILL snapshot of one of them shows the
outputs of before: the model's choice (log 35). -/
def Obligations.TimedOperationsEndAtTheSample : Prop :=
  (∀ s : State, sampleHere s →
    (∀ p start, s.bs.poles.get p = .tripping start → start + s.bs.settings.opening.get p ≤ s.now →
      ∃ t, exec (.contactsParted p) s = .next t ∧
        (t.bs.poles.get p = .arcing s.now ∨ t.bs.poles.get p = .opened) ∧
        (plainSample s → arcCrosses p s ∨ t.inRun = false → t.bs.poles.get p = .opened) ∧
        (plainSample s → 0 < s.bs.settings.arcing → ¬ arcCrosses p s → t.inRun = true →
          t.bs.poles.get p = .arcing s.now)) ∧
    (∀ p start, s.bs.poles.get p = .arcing start → s.now < start + s.bs.settings.arcing →
      ∃ t, exec .gridInstant s = .next t ∧
        (plainSample s → arcCrosses p s ∨ t.inRun = false → t.bs.poles.get p = .opened) ∧
        (plainSample s → ¬ arcCrosses p s → t.inRun = true → t.bs.poles.get p = .arcing start)) ∧
    (∀ p start, s.bs.poles.get p = .arcing start → start + s.bs.settings.arcing ≤ s.now →
      ∃ t, exec (.interruptedForced p) s = .next t ∧ t.bs.poles.get p = .opened) ∧
    (∀ p start, s.bs.poles.get p = .closing start → start + s.bs.settings.closing ≤ s.now →
      ∃ t, exec (.closingExpiry p) s = .next t ∧
        (t.bs.poles.get p = .closed ∨ t.bs.poles.get p = .tripping s.now ∨ t.bs.poles.get p = .opened) ∧
        (t.bs.poles.get p ≠ .closed → s.bs.settings.discrepancy ≠ 0 ∧
          ∃ began, s.bs.discrepancy = .timing began ∧ began + s.bs.settings.discrepancy ≤ s.now) ∧
        (t.bs.poles.get p = .opened → t.inRun = false)) ∧
    (∀ start, s.bs.spring = .charging (some start) → start + s.bs.settings.charge ≤ s.now →
      ∃ t, exec .springCharged s = .next t ∧ t.bs.spring = .charged)) ∧
  (∀ (t : Nat) (p : Pole) (s : State),
    let x := s.bs.settings
    (∀ start, s.bs.poles.get p = .tripping start →
      partContacts t s p =
        if start + x.opening.get p ≤ t then
          offerRun t (.breaker (.pole p) .contactsParted (some (t - start))) (putPole p (.arcing t) s)
        else s) ∧
    (∀ start, s.bs.poles.get p = .arcing start →
      forceOpen t s p =
        (if start + x.arcing ≤ t then
          offerRun t (.breaker (.pole p) .interruptedForced (some (t - start))) (putPole p .opened s)
        else s) ∧
      (arcCrosses p s →
        interruptPole t s p =
          offerRun t (.breaker (.pole p) .interrupted (some (t - start))) (putPole p .opened s)) ∧
      (¬ arcCrosses p s → interruptPole t s p = s)) ∧
    (∀ start, s.bs.poles.get p = .closing start →
      finishClosing t s p =
        if start + x.closing ≤ t then
          offerRun t (.breaker (.pole p) .closed (some (t - start))) (putPole p .closed s)
        else s) ∧
    (∀ start, s.bs.spring = .charging (some start) →
      chargeSpring t s =
        if start + x.charge ≤ t then
          offerRun t (.breaker .mechanism .springCharged (some (t - start)))
            { s with bs := { s.bs with spring := .charged } }
        else s) ∧
    ((∀ start, s.bs.poles.get p ≠ .tripping start) → partContacts t s p = s) ∧
    ((∀ start, s.bs.poles.get p ≠ .arcing start) → forceOpen t s p = s ∧ interruptPole t s p = s) ∧
    ((∀ start, s.bs.poles.get p ≠ .closing start) → finishClosing t s p = s) ∧
    ((∀ start, s.bs.spring ≠ .charging (some start)) → chargeSpring t s = s)) ∧
  (∀ (t : Nat) (s : State),
    let poles : List Pole := [.a, .b, .c]
    let u := poles.foldl (finishClosing t) (poles.foldl (forceOpen t) (poles.foldl (partContacts t) s))
    let closes := (∃ p start, s.bs.poles.get p = .closing start ∧ start + s.bs.settings.closing ≤ t) ∧
      ∀ p, u.bs.poles.get p = .closed
    (closes → breakerExpiries t s = offerRun t (.breaker .mechanism .allClosed none) u) ∧
    (¬ closes → breakerExpiries t s = u) ∧
    interruptPoles t s = poles.foldl (interruptPole t) s) ∧
  (∀ (t : Nat) (s : State),
    let u := breakerExpiries t s
    let v := interruptPoles t (if u.sq.entrySample then dropOpenDc u else u)
    let after := (computeSample t s).1
    let events := (computeSample t s).2.2
    let opens (p : Pole) : Prop := after.bs.poles.get p = .opened ∧ s.bs.poles.get p ≠ .opened
    after = refreshOutputs true (judgeDiscrepancy t (chargeSpring t (advanceAll (clipEpisodes t v)))) ∧
    (∀ p, .poleOpen p ∈ events ↔ opens p) ∧
    (.anyOpen ∈ events ↔ (∃ p, opens p) ∧ ∀ p, s.bs.poles.get p ≠ .opened) ∧
    (.allOpen ∈ events ↔ (∃ p, opens p) ∧ ∀ p, after.bs.poles.get p = .opened) ∧
    (.allClosed ∈ events ↔
      (∃ p start, s.bs.poles.get p = .closing start ∧ start + s.bs.settings.closing ≤ t) ∧
        ∀ p, u.bs.poles.get p = .closed) ∧
    (.discrepancyTrip ∈ events ↔ s.bs.settings.discrepancy ≠ 0 ∧ disagreement v.bs.poles = true ∧
      ∃ start, s.bs.discrepancy = .timing start ∧ start + s.bs.settings.discrepancy ≤ t) ∧
    .closeBlocked ∉ events ∧ .closeRefused ∉ events ∧
    (events.map fun b => codeIn [.poleOpen .a, .poleOpen .b, .poleOpen .c, .anyOpen, .allOpen, .allClosed,
      .closeBlocked, .closeRefused, .discrepancyTrip] b).Pairwise (· < ·))

/-- R101, R110, R111, R118: the discrepancy timer expires at a sample at which no other timed operation of a pole ends;
then R110's table of the phase, and R111's trip on each pole with its records. That DISCREPANCY_TRIP is the whole grid
instant is the model's choice (log 4). At an instant that loses a link too, the trip comes first and the run end after it:
the sample comes before the link's settling (log 15). The outputs follow after the sample's records (log 35). And a sample
that finds every pole at rest and the phase IDLE, as sample 0 does (R116, R117): only the spring's charge expiry changes the
breaker, and disagreement starts the timer. -/
def Obligations.DiscrepancyTripsTheClosedPoles : Prop :=
  (∀ (start : Nat) (s : State), sampleHere s → s.bs.discrepancy = .timing start → s.bs.settings.discrepancy ≠ 0 →
    start + s.bs.settings.discrepancy ≤ s.now →
    (∀ p, s.bs.poles.get p = .closed ∨ s.bs.poles.get p = .opened ∨
      (∃ a, s.bs.poles.get p = .tripping a ∧ s.now < a + s.bs.settings.opening.get p) ∨
      (∃ a, s.bs.poles.get p = .arcing a ∧ s.now < a + s.bs.settings.arcing) ∨
      (∃ a, s.bs.poles.get p = .closing a ∧ s.now < a + s.bs.settings.closing)) →
    (∃ p, poleOpen p s) →
    (∃ p, s.bs.poles.get p = .closed ∨ (∃ a, s.bs.poles.get p = .tripping a) ∨
      (plainSample s ∧ (∃ a, s.bs.poles.get p = .arcing a) ∧ ¬ arcCrosses p s)) →
    ∃ t, exec .discrepancyTrip s = .next t ∧
      (t.bs.discrepancy = .spent start ∨ (t.inRun = false ∧ t.bs.discrepancy = .idle)) ∧
      ∀ p,
        (s.bs.poles.get p = .closed → t.bs.poles.get p = .tripping s.now ∨
          (t.inRun = false ∧ t.bs.poles.get p = .opened)) ∧
        (s.bs.poles.get p = .opened → t.bs.poles.get p = .opened) ∧
        (∀ a, s.bs.poles.get p = .closing a → t.bs.poles.get p = .opened) ∧
        (∀ a, s.bs.poles.get p = .tripping a → t.bs.poles.get p = .tripping a ∨
          (t.inRun = false ∧ t.bs.poles.get p = .opened)) ∧
        (∀ a, s.bs.poles.get p = .arcing a →
          (t.bs.poles.get p = .arcing a ∨ t.bs.poles.get p = .opened) ∧
          (plainSample s → arcCrosses p s → t.bs.poles.get p = .opened) ∧
          (plainSample s → ¬ arcCrosses p s → t.inRun = true → t.bs.poles.get p = .arcing a))) ∧
  (∀ (t : Nat) (s : State),
    let time := s.bs.settings.discrepancy
    let phase (x : Discrepancy) : State := { s with bs := { s.bs with discrepancy := x } }
    let disagree := (∃ p, poleOpen p s) ∧ ∃ p, ¬ poleOpen p s
    (time = 0 → judgeDiscrepancy t s = s) ∧
    (time ≠ 0 → ¬ disagree → judgeDiscrepancy t s = phase .idle) ∧
    (time ≠ 0 → disagree →
      (s.bs.discrepancy = .idle → judgeDiscrepancy t s = phase (.timing t)) ∧
      (∀ start, s.bs.discrepancy = .timing start →
        (t < start + time → judgeDiscrepancy t s = s) ∧
        (start + time ≤ t →
          judgeDiscrepancy t s = offerRun t (.breaker .mechanism .discrepancyTrip (some (t - start)))
            (discrepancyPole t (discrepancyPole t (discrepancyPole t (phase (.spent start)) .a) .b) .c))) ∧
      (∀ start, s.bs.discrepancy = .spent start → judgeDiscrepancy t s = s))) ∧
  (∀ (t : Nat) (p : Pole) (s : State),
    (s.bs.poles.get p = .closed → discrepancyPole t s p = putPole p (.tripping t) s) ∧
    (∀ a, s.bs.poles.get p = .closing a →
      discrepancyPole t s p = offerRun t (.breaker (.pole p) .tripFree (some (t - a))) (putPole p .opened s)) ∧
    (s.bs.poles.get p = .opened ∨ (∃ a, s.bs.poles.get p = .tripping a) ∨ (∃ a, s.bs.poles.get p = .arcing a) →
      discrepancyPole t s p = s)) ∧
  (∀ (t : Nat) (s : State),
    (∀ p, s.bs.poles.get p = .closed ∨ s.bs.poles.get p = .opened) → s.bs.discrepancy = .idle →
    let u := (computeSample t s).1
    let disagree := (∃ p, s.bs.poles.get p = .opened) ∧ ∃ p, s.bs.poles.get p = .closed
    u.bs.poles = s.bs.poles ∧ u.bs.active = s.bs.active ∧
      (∀ start, s.bs.spring = .charging (some start) → start + s.bs.settings.charge ≤ t → u.bs.spring = .charged) ∧
      ((∀ start, s.bs.spring = .charging (some start) → t < start + s.bs.settings.charge) →
        u.bs.spring = s.bs.spring) ∧
      (s.bs.settings.discrepancy ≠ 0 → disagree → u.bs.discrepancy = .timing t) ∧
      (s.bs.settings.discrepancy = 0 ∨ ¬ disagree → u.bs.discrepancy = .idle))

/-! ### The sample grid and the amplifier link -/

/-- R54, R80, R83: a grid instant outside a run. -/
def Obligations.GridInstantOutsideARunSendsZeros : Prop :=
  ∀ s : State, s.resetLine = false → s.count = s.ws.nextGrid → s.inRun = false → spared s.al.v → spared s.al.i →
    let after (x : AmpGroup) : AmpGroup :=
      if x.state = .settling ∨ x.state = .ready then
        { x with
          missed := if x.outstanding.isSome then x.missed + 1 else x.missed
          acked := if x.outstanding.isSome then 0 else x.acked
          frameNumber := x.frameNumber + 1
          outstanding := some (x.frameNumber + 1)
          lastFrame := some ⟨x.frameNumber + 1, .replicate 4 0⟩ }
      else x
    exec .gridInstant s =
      .next (settle { s with
        ws := { s.ws with nextGrid := s.count + 500, lastGrid := some s.count, codes := .replicate 8 0 }
        al := ⟨after s.al.v, after s.al.i⟩ })

/-- What a grid instant leaves in every case, whichever of its rows names it: the settings, the table and the time
base but for the latch that a run end drops (R30). And the rows that name an instant of the part's own, the model's choice
(log 4): nothing but the end of the step where the instant is not due; where it is, exactly the grid instant, PPS edge,
acknowledgment or settling (R18, R24, R34, R37, R40, R54, R83, R85, R88, R102, R104, R108, R109, R111, R158, R160, R166,
R170 say when it is). -/
def Obligations.GridInstantLeavesTheSettings : Prop :=
  (∀ (c : Instr) (s t : State),
    c ∈ ([.gridInstant, .springCharged, .discrepancyTrip, .guardExpiry, .limit] : List Instr) ∨
      (∃ p, c = .contactsParted p ∨ c = .interruptedForced p ∨ c = .closingExpiry p) ∨ (∃ i, c = .afterExit i) →
    exec c s = .next t →
    t.st = s.st ∧ t.ws.settings = s.ws.settings ∧ t.ws.ieMode = s.ws.ieMode ∧ t.bs.settings = s.bs.settings ∧
      t.bo.sources = s.bo.sources ∧ t.bo.bits = s.bo.bits ∧
      { t.tb with latch := none } = { s.tb with latch := none } ∧ t.contactLines = s.contactLines ∧
      t.ci.nextSample = s.ci.nextSample ∧ t.count = s.count ∧ t.pending = s.pending) ∧
  (∀ s : State, s.resetLine = false →
    let grid := exec .gridInstant s
    let x := s.bs.settings
    let u := breakerExpiries s.now (beginSample s.now s)
    let v := interruptPoles s.now (if u.sq.entrySample then dropOpenDc u else u)
    let judged := (computeSample s.now (beginSample s.now s)).1
    let judging := sampleHere s ∧ judged.sq.state = .running ∧ judged.sq.taken = none
    (∀ p,
      onlyWhenDue (.contactsParted p)
        (sampleHere s ∧ ∃ start, s.bs.poles.get p = .tripping start ∧ start + x.opening.get p ≤ s.now) grid s ∧
      onlyWhenDue (.interruptedForced p)
        (sampleHere s ∧ ∃ start, s.bs.poles.get p = .arcing start ∧ start + x.arcing ≤ s.now) grid s ∧
      onlyWhenDue (.closingExpiry p)
        (sampleHere s ∧ ∃ start, s.bs.poles.get p = .closing start ∧ start + x.closing ≤ s.now) grid s) ∧
    onlyWhenDue .springCharged
      (sampleHere s ∧ ∃ start, s.bs.spring = .charging (some start) ∧ start + x.charge ≤ s.now) grid s ∧
    onlyWhenDue .discrepancyTrip
      (sampleHere s ∧ x.discrepancy ≠ 0 ∧ disagreement v.bs.poles = true ∧
        ∃ start, s.bs.discrepancy = .timing start ∧ start + x.discrepancy ≤ s.now) grid s ∧
    (∀ i : Fin 6, onlyWhenDue (.afterExit i)
      (judging ∧ ∃ n e y time, judged.sq.current = some n ∧ judged.st.entries[n] = some e ∧
        e.exits[i.val]? = some y ∧ y.trigger = .after time ∧ judged.entryTime + time ≤ judged.runTimeAt s.count ∧
        (judged.sq.entrySample = true ∨ judged.runTimeAt (s.count - 500) < judged.entryTime + time)) grid s) ∧
    onlyWhenDue .guardExpiry (judging ∧ ∃ g, judged.sq.guard = some g ∧ g.expiry ≤ s.now) grid s ∧
    onlyWhenDue .limit
      (s.count = s.ws.nextGrid ∧ s.inRun = true ∧ 4000000000 ≤ s.now ∧
        ∀ y, s.sq.taken = some y → y.target ≠ .finish) grid s ∧
    onlyWhenDue .closingPulse
      (s.tb.accepts s.count = true ∧ s.tb.state = .calibrating ∧
        ∃ y opening, s.tb.cal = some y ∧ y.phase = .counting opening ∧ y.pulses + 1 = y.k) (exec .ppsEdge s) s ∧
    (∀ (g : Group) (number flags : Byte) (check : Half),
      let y := s.al.get g
      let plain := check = crc16 [0x5A, number, flags] ∧ y.outstanding = some number ∧ flags.getLsbD 4 = false
      onlyWhenDue (.settlingComplete g number flags check) (plain ∧ y.state = .settling ∧ y.acked = 1999)
        (exec (.acknowledgment g number flags check) s) s ∧
      (∀ k : Fin 4, onlyWhenDue (.overloadEvent g k number flags check)
        (plain ∧ (y.state = .settling ∨ y.state = .ready) ∧ flags.getLsbD k.val = true ∧ 19 ≤ y.overRun[k] ∧
          y.episode[k] = false)
        (exec (.acknowledgment g number flags check) s) s) ∧
      onlyWhenDue (.linkLost g)
        (s.count = s.ws.nextGrid ∧ (y.state = .settling ∨ y.state = .ready) ∧ y.outstanding.isSome ∧ y.missed = 3)
        (.next (settle (settleMissed g s))) s) ∧
    (∀ c : Instr,
      (c = .gridInstant ∧ s.count ≠ s.ws.nextGrid) ∨
        (∃ contacts sync, c = .contactSample contacts sync ∧ s.count ≠ s.ci.nextSample) ∨
        (c = .qualification 0 ∧ ∀ first samples, s.ci.sync.qualifier = .candidate first samples → samples.length ≠ 3) ∨
        (∃ k : Fin 12, c = .qualification k.succ ∧
          ∀ first samples, s.ci.inputs[k].qualifier = .candidate first samples → samples.length ≠ 3) ∨
        c = .windowEnd 0 ∨
        (∃ k : Fin 12, c = .windowEnd k.succ ∧
          ∀ last, s.ci.inputs[k].qualifier = .window last → s.count < last ∨ s.ci.nextSample ≠ s.count + 100) ∨
        (c = .internalMark ∧ ∀ p, s.tb.prevMark = some p → s.count ≠ p + s.tb.interval + 5001) ∨
        (c = .gapEnd ∧ (s.sq.state ≠ .gap ∨ ∀ e, s.sq.gapEnd = some e → s.count < e)) →
      exec c s = .next (settle s)))

/-- R65, R68, R69, R71, R72, R73, R74, R75, R76, R77, R78, R80, R83: the values of one sample, the advance, the clip
episodes, the codes and their limits, and the codes and frames of a sample of the run. The AC value is an integer within
1/2 + 2⁻⁵⁰ of the exact product, where R68 has the nearest integer: the model takes the sine from a series (log 9). The
places of its records and frames among
each other are logs 14, 26 and 34; that a sum limited at the very sample at which the pole interrupts or is forced open
counts as clipped is log 18. -/
def Obligations.CodesStayWithinTheirLimits : Prop :=
  (∀ (s : State) (ch : Fin 8),
    let x := s.ws.settings[ch]
    let y : Int := roundDiv (sampleValue s ch * x.gain) 32768 + x.offset;
    (-(x.limit : Int) ≤ (sampleCodes s)[ch] ∧ (sampleCodes s)[ch] ≤ x.limit) ∧
      (-(x.limit : Int) ≤ y → y ≤ x.limit → (sampleCodes s)[ch] = y) ∧
      (y < -(x.limit : Int) → (sampleCodes s)[ch] = -(x.limit : Int)) ∧
      ((x.limit : Int) < y → (sampleCodes s)[ch] = x.limit) ∧
      (∀ a : Nat, ∀ theta : Word, -(a : Int) ≤ sineCode a theta ∧ sineCode a theta ≤ a)) ∧
  (∀ (a : Nat) (theta : Word),
    (a ≤ 32767 →
      |((sineCode a theta : Int) : ℝ) - a * Real.sin (2 * Real.pi * theta.toNat / 2 ^ 32)| ≤ 1 / 2 + 1 / 2 ^ 50) ∧
    sineCode a (theta + 0x80000000) = -sineCode a theta ∧ sineCode a (0x80000000 - theta) = sineCode a theta ∧
    sineCode a 0 = 0 ∧ (a ≤ 32767 → sineCode a 0x40000000 = a)) ∧
  (∀ s : State,
    let x (ch : Fin 8) : LiveRecord := s.ws.live[ch]
    let ac (ch : Fin 8) : Int := sineCode ((x ch).aFix / 65536).toNat (x ch).theta
    let full (ch : Fin 8) : Int := clampInt (-32767) 32767 (ac ch + Int.tdiv (x ch).d 65536)
    let voltage : Pole → Fin 8 := fun p => match p with | .a => 0 | .b => 1 | .c => 2
    let current : Pole → Fin 8 := fun p => match p with | .a => 4 | .b => 5 | .c => 6
    sampleValue s 3 = ac 3 ∧
    (∀ p, poleOpen p s → sampleValue s (current p) = 0 ∧
      (s.bs.settings.side = .line → sampleValue s (voltage p) = sineCode s.bs.settings.openAmp (x (voltage p)).theta) ∧
      (s.bs.settings.side = .bus → sampleValue s (voltage p) = ac (voltage p))) ∧
    (∀ p, ¬ poleOpen p s → sampleValue s (current p) = full (current p) ∧ sampleValue s (voltage p) = ac (voltage p)) ∧
    (s.ws.ieMode = .independent → sampleValue s 7 = full 7) ∧
    (s.ws.ieMode = .residual → sampleValue s 7 = sampleValue s 4 + sampleValue s 5 + sampleValue s 6)) ∧
  (∀ (s : State) (ch : Fin 8),
    let x := s.ws.live[ch]
    let next := x.aFix + x.rampStep
    let goal : Int := (x.rampTarget : Int) * 65536
    let done := (0 < x.rampStep ∧ goal ≤ next) ∨ (x.rampStep < 0 ∧ next ≤ goal)
    let onOpen := ∃ p, currentChannel p = ch ∧ poleOpen p s
    (onOpen ∨ ch.val < 4 →
      (advanceAll s).ws.live[ch] =
        { x with
          theta := x.theta + x.dTheta, aFix := if done then goal else next, rampStep := if done then 0 else x.rampStep
          d := 0, sPrev := sampleValue s ch } ∧
      (onOpen → (dropOpenDc s).ws.live[ch] = { x with d := 0 })) ∧
    (¬ onOpen → 4 ≤ ch.val →
      (advanceAll s).ws.live[ch] =
        { x with
          theta := x.theta + x.dTheta, aFix := if done then goal else next, rampStep := if done then 0 else x.rampStep
          d := Int.tdiv (x.d * s.ws.decay) 65536, sPrev := sampleValue s ch }) ∧
    (¬ onOpen → (dropOpenDc s).ws.live[ch] = x) ∧
    (advanceAll s).ws.r = s.ws.r + s.ws.dRef) ∧
  (∀ (t : Nat) (s : State) (ch : Fin 8),
    let x := s.ws.live[ch]
    let l : Int := s.ws.settings[ch].limit
    let y : Int := roundDiv (sampleValue s ch * s.ws.settings[ch].gain) 32768 + s.ws.settings[ch].offset
    let outside := y < -l ∨ l < y
    let sum := sineCode (x.aFix / 65536).toNat x.theta + Int.tdiv x.d 65536
    let clipped := outside ∨ (4 ≤ ch.val ∧ (sum < -32767 ∨ 32767 < sum))
    let flag (b : Bool) : State := { s with ws := { s.ws with live := s.ws.live.set ch { x with clip := b } } }
    (clipped → x.clip = false →
      clipEpisode t s ch = offerRun t (.clip ch true (if outside then some y else none)) (flag true)) ∧
    (¬ clipped → x.clip = true → clipEpisode t s ch = offerRun t (.clip ch false none) (flag false)) ∧
    (clipped ∧ x.clip = true ∨ ¬ clipped ∧ x.clip = false → clipEpisode t s ch = s) ∧
    (x.clip = true → closeClip t s ch = offerRun t (.clip ch false none) (flag false)) ∧
    (x.clip = false → closeClip t s ch = s)) ∧
  (∀ s : State, sampleHere s →
    let s1 := breakerExpiries s.now (beginSample s.now (takeGrid s))
    let s2 := interruptPoles s.now (if s1.sq.entrySample then dropOpenDc s1 else s1)
    ∃ t, exec .gridInstant s = .next t ∧ t.ws.codes = sampleCodes s2 ∧
      ∀ g, spared (s.al.get g) →
        let x := s.al.get g
        (x.state = .off ∨ x.state = .fault → t.al.get g = x) ∧
        (x.state = .settling ∨ x.state = .ready →
          t.al.get g =
            { x with
              missed := if x.outstanding.isSome then x.missed + 1 else x.missed
              acked := if x.outstanding.isSome then 0 else x.acked
              frameNumber := x.frameNumber + 1
              outstanding := some (x.frameNumber + 1)
              lastFrame := some ⟨x.frameNumber + 1,
                if x.state = .ready then .ofFn fun k => (sampleCodes s2)[groupChannel g k] else .replicate 4 0⟩ }))

/-- R81, R82, R85, R87, R88, R91: an acknowledgment, with every overload flag that raises no event; and the entry to
FAULT, with its AMP record and its AMP_FAULT notice, before the sequencer learns of it. A RUN_END or CHAIN_END notice
that follows in the same instant replaces that notice, on a free line too: the model's choice (log 40). Bytes that the
group's receiver holds stay as they are, whatever becomes of the whole acknowledgment: the model's choice too (log 39; R81
and R206 do not say how the two meet). -/
def Obligations.AcknowledgmentIsTakenOrDiscarded : Prop :=
  (∀ (g : Group) (number flags : Byte) (check : Half) (s : State), s.resetLine = false →
    let x := s.al.get g
    let taken := check = crc16 [0x5A, number, flags] ∧ (x.state = .settling ∨ x.state = .ready) ∧
      x.outstanding = some number
    let acked := min 2000 (x.acked + 1)
    (¬ taken → exec (.acknowledgment g number flags check) s = .next (settle s)) ∧
    (taken → flags.getLsbD 4 = true →
      ∃ t, exec (.acknowledgment g number flags check) s = .next t ∧
        t = settle (enterFault g .overTemp (putGroup g { x with outstanding := none, missed := 0 } s)) ∧
        (t.al.get g).state = .fault ∧
        (t.al.get g).outstanding = none ∧ (t.al.get g).missed = 0 ∧ (x.state = .ready → t.inRun = false) ∧
        (x.state = .ready → s.inRun = true → t.sq.lastOutcome = some .ampFault)) ∧
    (taken → flags.getLsbD 4 = false →
      (∀ k : Fin 4, flags.getLsbD k.val = true → x.overRun[k] < 19 ∨ x.episode[k] = true) →
      exec (.acknowledgment g number flags check) s =
        .next (settle (putGroup g
          { x with
            outstanding := none, missed := 0, acked := acked
            state := if x.state = .settling ∧ acked = 2000 then .ready else x.state
            overRun := .ofFn fun k => if flags.getLsbD k.val then min 20 (x.overRun[k] + 1) else 0
            episode := .ofFn fun k => flags.getLsbD k.val && x.episode[k] } s)))) ∧
  (∀ (g : Group) (cause : AmpEvent) (s : State),
    let x := s.al.get g
    let faulty := putGroup g { x with state := .fault, outstanding := none } s
    let recorded := if s.inRun then offer s.sq.runNumber s.now (.amp g cause none) faulty
      else offer 0 0 (.amp g cause none) faulty
    let noticed := raiseNotice .ampFault recorded
    (∃ y, noticed.cl.notice = some ⟨.ampFault, y⟩ ∧ y = recorded.snapshot ∧ y.groups.get g = .fault) ∧
    (x.state = .ready → enterFault g cause s = groupLeftReady noticed) ∧
    (x.state ≠ .ready → enterFault g cause s = noticed))

/-- R85, R88, R89, R91, R165: the acknowledgments that complete settling and that raise an overload event, exactly, each
flag with its counting and its AMP record, channel by channel (log 26); and the sequencer's answer to an overload event.
That SETTLING_COMPLETE and OVERLOAD_EVENT are the whole acknowledgment is the model's choice (log 4), and so is what two
overload events of one acknowledgment come to under ABORT, the second AMP record after RUN_END with run 0 and time 0
(log 44). All three rows leave the bytes that the group's receiver holds as they are: the model's choice (log 39). -/
def Obligations.SettlingAndOverloadEvents : Prop :=
  (∀ (g : Group) (number flags : Byte) (check : Half) (s : State), s.resetLine = false →
    let x := s.al.get g
    let acked := min 2000 (x.acked + 1)
    let counted := [0, 1, 2, 3].foldl (applyOverload g flags) (putGroup g
      { x with
        outstanding := none, missed := 0, acked := acked
        state := if x.state = .settling ∧ acked = 2000 then .ready else x.state } s)
    check = crc16 [0x5A, number, flags] → x.outstanding = some number → flags.getLsbD 4 = false →
    (x.state = .settling ∨ x.state = .ready →
      exec (.acknowledgment g number flags check) s = .next (settle counted)) ∧
    (x.state = .settling → x.acked = 1999 →
      ∃ t, exec (.settlingComplete g number flags check) s = .next t ∧ t = settle counted ∧
        (t.al.get g).state = .ready ∧
        (t.al.get g).acked = 2000 ∧ (t.al.get g).missed = 0 ∧ (t.al.get g).outstanding = none) ∧
    (∀ k : Fin 4, x.state = .settling ∨ x.state = .ready → flags.getLsbD k.val = true → 19 ≤ x.overRun[k] →
      x.episode[k] = false →
      ∃ t, exec (.overloadEvent g k number flags check) s = .next t ∧ t = settle counted ∧
        (t.al.get g).overRun[k] = 20 ∧ (t.al.get g).episode[k] = true ∧
        (∀ r, s.inRun = true → s.sq.settings = some r → r.action = .abort →
          t.inRun = false ∧ t.sq.lastOutcome = some .ampFault))) ∧
  (∀ (g : Group) (flags : Byte) (k : Fin 4) (ch : Fin 8) (s : State),
    ch.val = (if g = .v then 0 else 4) + k.val →
    let x := s.al.get g
    let flag := flags.getLsbD k.val
    let raised := flag = true ∧ 19 ≤ x.overRun[k] ∧ x.episode[k] = false
    let kept := putGroup g
      { x with
        overRun := x.overRun.set k (if flag then min 20 (x.overRun[k] + 1) else 0)
        episode := x.episode.set k (flag && (x.episode[k] || decide (19 ≤ x.overRun[k]))) } s
    (¬ raised → applyOverload g flags s k = kept) ∧
    (raised →
      applyOverload g flags s k =
        handOverload (if s.inRun then offer s.sq.runNumber s.now (.amp g .overload (some ch)) kept
          else offer 0 0 (.amp g .overload (some ch)) kept))) ∧
  (∀ s : State,
    (s.inRun = false → handOverload s = s) ∧
    (∀ r, s.inRun = true → s.sq.settings = some r →
      (r.action = .abort → handOverload s = runEnd .ampFault s) ∧ (r.action = .record → handOverload s = s)))

/-- R80, R83, R87, R91, R165: a frame settled as missed and the next one sent; the fourth miss in a row loses the link; and
what the sequencer does when a group has left READY. That the loss may be taken as a step of its own is log 15; that LINK_LOST is that settling
and no more is the model's choice (log 4). -/
def Obligations.FourthMissLosesTheLink : Prop :=
  (∀ (g : Group) (s : State), s.resetLine = false → s.count = s.ws.nextGrid →
    let x := s.al.get g
    x.state = .settling ∨ x.state = .ready → x.outstanding.isSome → x.missed = 3 →
    ∃ t, exec (.linkLost g) s = .next t ∧
      t = settle (enterFault g .linkLost (putGroup g { x with missed := 4, acked := 0, outstanding := none } s)) ∧
      (t.al.get g).state = .fault ∧ (t.al.get g).outstanding = none ∧
      (t.al.get g).missed = 4 ∧ (t.al.get g).acked = 0 ∧ (t.al.get g).lastFrame = x.lastFrame ∧
      (x.state = .ready → t.inRun = false ∧ t.sq.state = .idle) ∧
      (x.state = .ready → s.inRun = true → t.sq.lastOutcome = some .ampFault)) ∧
  (∀ (g : Group) (codes : Vector Int 8) (s : State),
    let x := s.al.get g
    let missed := putGroup g { x with missed := x.missed + 1, acked := 0, outstanding := none } s
    frameInstant g codes s = sendFrame g codes (settleMissed g s) ∧
    (x.state ≠ .settling → x.state ≠ .ready → sendFrame g codes s = s) ∧
    (x.state = .settling ∨ x.state = .ready →
      sendFrame g codes s = putGroup g
        { x with
          frameNumber := x.frameNumber + 1, outstanding := some (x.frameNumber + 1)
          lastFrame := some ⟨x.frameNumber + 1,
            if x.state = .ready then .ofFn fun k => codes[groupChannel g k] else .replicate 4 0⟩ } s) ∧
    ((x.state ≠ .settling ∧ x.state ≠ .ready) ∨ x.outstanding = none → settleMissed g s = s) ∧
    (x.state = .settling ∨ x.state = .ready → x.outstanding.isSome →
      (x.missed < 3 → settleMissed g s = missed) ∧
      (3 ≤ x.missed → settleMissed g s = enterFault g .linkLost missed))) ∧
  (∀ s : State,
    (s.sq.state = .running ∨ s.sq.state = .pointing → groupLeftReady s = runEnd .ampFault s) ∧
    (s.sq.state = .armed ∨ s.sq.state = .gap → groupLeftReady s = waitEnded s) ∧
    (s.sq.state = .idle → groupLeftReady s = s))

/-- R206: the acknowledgment receiver. -/
def Obligations.AcknowledgmentBytesMakeAnAcknowledgment : Prop :=
  ∀ (g : Group) (b : Byte) (s : State), s.resetLine = false →
    let x := s.al.get g
    (x.receiver = [] → b ≠ 0x5A → exec (.acknowledgmentByte g b) s = .next (settle s)) ∧
    (x.receiver = [] → b = 0x5A →
      exec (.acknowledgmentByte g b) s = .next (settle (putGroup g { x with receiver := [0x5A] } s))) ∧
    (∀ got, x.receiver = got → 1 ≤ got.length → got.length ≤ 3 →
      exec (.acknowledgmentByte g b) s = .next (settle (putGroup g { x with receiver := got ++ [b] } s))) ∧
    (∀ lead number flags low, x.receiver = [lead, number, flags, low] →
      exec (.acknowledgmentByte g b) s =
        exec (.acknowledgment g number flags (BitVec.ofNat 16 (low.toNat + 256 * b.toNat)))
          (putGroup g { x with receiver := [] } s))

/-! ### The sequencer's events -/

/-- R157, R158, R159, R161, R162: an AFTER exit whose time has come, with no guard and no exit of lower index that could
match, and at an instant that loses no link (that AFTER_EXIT is the whole grid instant is log 4); then the taking of any
exit with its mark action; the judging of an event, which within a guard is latched where the latch is empty or holds a
higher index, an equal index keeping the latch with its cause time, which is the model's choice (log 42; R159 also has the
earlier cause time stand); the entry of a target without inception at the next sample, and the wait for the point on the
wave. The entries are counted at any grid instant, one that loses a link included: that the sample comes before the link's
settling is log 15. -/
def Obligations.AfterExitIsTakenAtItsSample : Prop :=
  (∀ (i : Fin 6) (n : Fin 24) (e : Entry) (x : Exit) (time : Nat) (s : State), sampleHere s →
    s.sq.state = .running → s.sq.taken = none → s.sq.guard = none → s.sq.entrySample = false →
    s.sq.current = some n → s.st.entries[n] = some e → e.exits[i.val]? = some x → x.trigger = .after time →
    s.entryTime + time ≤ s.now → s.runTimeAt (s.count - 500) < s.entryTime + time →
    (∀ j y, j < i.val → e.exits[j]? = some y →
      (∀ b, y.trigger ≠ .breaker b) ∧ (∀ a, y.trigger = .after a → s.now < s.entryTime + a)) →
    spared s.al.v → spared s.al.i →
    ∃ t, exec (.afterExit i) s = .next t ∧
      (x.target = .finish ∨ (∃ m e', x.target = .state m ∧ s.st.entries[m] = some e') →
        t.sq.taken = some ⟨x.target, i, s.now, none⟩ ∧ t.inRun = true) ∧
      (∀ m, x.target = .state m → s.st.entries[m] = none → t.inRun = false ∧ t.sq.lastOutcome = some .table)) ∧
  (∀ (i : Fin 6) (x : Exit) (time : Nat) (cause : Option Nat) (s : State),
    ∃ marks : BitVec 16,
      (∀ m : Fin 16,
        (x.action = none → marks.getLsbD m.val = s.sq.marks.getLsbD m.val) ∧
        (∀ k, x.action = some (.set k) →
          marks.getLsbD m.val = (decide (m = k) || s.sq.marks.getLsbD m.val)) ∧
        (∀ k, x.action = some (.clear k) →
          marks.getLsbD m.val = (decide (m ≠ k) && s.sq.marks.getLsbD m.val))) ∧
      let left (state : SeqState) : State :=
        { s with sq := { s.sq with
          state := state, marks := marks, taken := some ⟨x.target, i, time, cause⟩, guard := none } }
      (x.target = .finish → takeExit i.val x time cause s = left s.sq.state) ∧
      (∀ n e, x.target = .state n → s.st.entries[n] = some e →
        takeExit i.val x time cause s = left (if e.inception.isSome then .pointing else s.sq.state)) ∧
      (∀ n, x.target = .state n → s.st.entries[n] = none →
        takeExit i.val x time cause s = runEnd .table (left s.sq.state))) ∧
  (∀ (m : Trigger → Bool) (time : Nat) (s : State),
    (s.sq.state ≠ .running ∨ s.sq.taken.isSome → judgeEvent m time s = s) ∧
    (∀ n e, s.sq.state = .running → s.sq.taken = none → s.sq.current = some n → s.st.entries[n] = some e →
      ((∀ y ∈ e.exits, m y.trigger = false) → judgeEvent m time s = s) ∧
      (∀ (i : Fin 6) y, e.exits[i.val]? = some y → m y.trigger = true →
        (∀ j z, j < i.val → e.exits[j]? = some z → m z.trigger = false) →
        (s.sq.guard = none → judgeEvent m time s = takeExit i.val y time none s) ∧
        (∀ g, s.sq.guard = some g →
          let new : Latch := ⟨i, time⟩
          let latch := match g.latch with
            | none => new
            | some l => if i < l.index then new else l
          judgeEvent m time s = { s with sq := { s.sq with guard := some { g with latch := some latch } } })))) ∧
  (∀ (n : Fin 24) (e : Entry) (x : TakenExit) (s : State), sampleHere s → s.sq.state = .running →
    s.sq.taken = some x → x.target = .state n → s.st.entries[n] = some e → e.inception = none →
    ∃ t, exec .gridInstant s = .next t ∧ t.sq.visits[n] = min 65535 (s.sq.visits[n] + 1) ∧
      entryDue s = some n ∧ beginSample s.now s = enterState n s.now s) ∧
  (∀ (n : Fin 24) (e : Entry) (angle : Nat) (x : TakenExit) (s : State), sampleHere s → s.sq.state = .pointing →
    s.sq.taken = some x → x.target = .state n → s.st.entries[n] = some e → e.inception = some angle →
    let passes := (s.ws.r - BitVec.ofNat 32 (roundNat (angle * 2 ^ 32) 36000)).toNat < s.ws.dRef.toNat
    (passes → ∃ t, exec .gridInstant s = .next t ∧ t.sq.visits[n] = min 65535 (s.sq.visits[n] + 1) ∧
      beginSample s.now s = enterState n s.now s) ∧
    (¬ passes → spared s.al.v → spared s.al.i →
      ∃ t, exec .gridInstant s = .next t ∧ t.sq.state = .pointing ∧ t.sq.taken = some x ∧
        t.sq.current = s.sq.current ∧ t.sq.visits = s.sq.visits ∧ t.ws.r = s.ws.r + s.ws.dRef))

/-- R54, R75, R80, R112, R114, R158, R159, R160, R174: the guard's expiry sample, at which no exit matches of itself and no
link is lost: the latched exit is taken, or the guard ends; then a sample's set judged without a guard, within one (an
equal index keeps the latch: log 42) and at its expiry, what the set holds, and that the events of a sample reach the
assessment unit before the sequencer judges its set (R114, R174); and the whole next state of a grid instant at a sample
of the run: the sample, its codes, the frames after it, group V first (log 15, log 26). Where group V's link loss at this
very instant ends the run, group I is still sent the sample's codes: the model's choice (log 34). -/
def Obligations.GuardExpiryTakesTheLatch : Prop :=
  (∀ (n : Fin 24) (e : Entry) (g : Guard) (s : State), sampleHere s → s.sq.state = .running → s.sq.taken = none →
    s.sq.guard = some g → g.expiry ≤ s.now → s.sq.entrySample = false → s.sq.current = some n →
    s.st.entries[n] = some e →
    (∀ y ∈ e.exits, (∀ b, y.trigger ≠ .breaker b) ∧ (∀ a, y.trigger = .after a → s.now < s.entryTime + a)) →
    spared s.al.v → spared s.al.i →
    ∃ t, exec .guardExpiry s = .next t ∧
      (g.latch = none → t.sq.guard = none ∧ t.sq.taken = none ∧ t.sq.state = .running) ∧
      (∀ l y, g.latch = some l → e.exits[l.index.val]? = some y →
        (y.target = .finish ∨ (∃ m e', y.target = .state m ∧ s.st.entries[m] = some e')) →
        t.sq.guard = none ∧ t.sq.taken = some ⟨y.target, l.index, s.now, some l.causeTime⟩)) ∧
  (∀ (count : Nat) (events : List BreakerEvent) (n : Fin 24) (e : Entry) (s : State), s.sq.state = .running →
    s.sq.taken = none → s.sq.current = some n → s.st.entries[n] = some e →
    let m := sampleMatches s count events
    let t := s.runTimeAt count
    let none' := ∀ y ∈ e.exits, m y.trigger = false
    let first (i : Fin 6) (y : Exit) : Prop := e.exits[i.val]? = some y ∧ m y.trigger = true ∧
      ∀ j z, j < i.val → e.exits[j]? = some z → m z.trigger = false
    let free : State := { s with sq := { s.sq with guard := none } }
    (s.sq.guard = none →
      (none' → judgeSample count events s = s) ∧
      (∀ i y, first i y → judgeSample count events s = takeExit i.val y t none s)) ∧
    (∀ g, s.sq.guard = some g → t < g.expiry →
      (none' → judgeSample count events s = s) ∧
      (∀ i y, first i y →
        let new : Latch := ⟨i, t⟩
        let latch := match g.latch with
          | none => new
          | some l => if i < l.index then new else l
        judgeSample count events s = { s with sq := { s.sq with guard := some { g with latch := some latch } } })) ∧
    (∀ g, s.sq.guard = some g → g.expiry ≤ t →
      (g.latch = none → none' → judgeSample count events s = free) ∧
      (∀ i y, g.latch = none → first i y → judgeSample count events s = takeExit i.val y t none free) ∧
      (∀ l z, g.latch = some l → e.exits[l.index.val]? = some z →
        (none' → judgeSample count events s = takeExit l.index.val z t (some l.causeTime) free) ∧
        (∀ i y, first i y → i < l.index → judgeSample count events s = takeExit i.val y t none free) ∧
        (∀ i y, first i y → l.index ≤ i →
          judgeSample count events s = takeExit l.index.val z t (some l.causeTime) free)))) ∧
  (∀ (count : Nat) (events : List BreakerEvent) (s : State),
    let m := sampleMatches s count events
    (∀ a, m (.after a) = true ↔ s.entryTime + a ≤ s.runTimeAt count ∧
      (s.sq.entrySample = true ∨ s.runTimeAt (count - 500) < s.entryTime + a)) ∧
    (∀ b, m (.breaker b) = true ↔ b ∈ events) ∧
    (∀ k : Fin 16, m (.mark k) = true ↔ s.sq.entrySample = true ∧ s.sq.marks.getLsbD k.val = true) ∧
    (∀ c : Fin 4, m (.count c) = true ↔ s.sq.entrySample = true ∧ s.sq.counters[c] = 0) ∧
    (∀ i d, m (.edge i d) = false) ∧ m .sync = false ∧ m .go = false) ∧
  (∀ (count : Nat) (events : List BreakerEvent) (s : State),
    let t := s.runTimeAt count
    let u := judgeSample count events (assessBreakerEvents events t t s)
    judgeSampleEvents count events s = { u with sq := { u.sq with entrySample := false } }) ∧
  (∀ (count : Nat) (s : State),
    let t := s.runTimeAt count
    let done := computeSample t (beginSample t s)
    sampleEnd t s = none → runSample count s = (judgeSampleEvents count done.2.2 done.1, done.2.1)) ∧
  (∀ s : State, sampleHere s →
    let taken : State := { s with ws := { s.ws with nextGrid := s.count + 500, lastGrid := some s.count } }
    let done := runSample s.count taken
    let coded : State := { done.1 with ws := { done.1.ws with codes := done.2 } }
    exec .gridInstant s = .next (settle (frameInstant .i done.2 (frameInstant .v done.2 coded))))

/-- R56, R161, R166: the run ends that take the place of a sample: COMPLETE after a taken exit to END, LIMIT at the run
time limit, and COMPLETE where both fall on one sample. That LIMIT is the whole grid instant is the model's choice (log 4).
At an instant that loses a link too, the run ends COMPLETE or LIMIT, not AMPFAULT: the sample comes before the link's
settling (log 15). Group V is settled and sent before group I (logs 15 and 26). -/
def Obligations.LimitEndsTheRun : Prop :=
  (∀ s : State, s.resetLine = false → s.count = s.ws.nextGrid → s.inRun = true →
    let zeros : Vector Int 8 := .replicate 8 0
    let ended (o : RunOutcome) : State := runEnd o (takeGrid s)
    let sent (o : RunOutcome) : State :=
      settle (frameInstant .i zeros (frameInstant .v zeros
        { ended o with ws := { (ended o).ws with codes := zeros } }))
    (4000000000 ≤ s.now → (∀ x, s.sq.taken = some x → x.target ≠ .finish) →
      ∃ t, exec .limit s = .next t ∧ exec .gridInstant s = .next t ∧ t = sent .limit ∧
        t.inRun = false ∧ t.sq.state = .idle ∧ t.sq.lastOutcome = some .limit ∧
        t.ws.codes = .replicate 8 0) ∧
    (∀ x, s.sq.taken = some x → x.target = .finish →
      ∃ t, exec .gridInstant s = .next t ∧ t = sent .complete ∧ t.inRun = false ∧
        t.sq.lastOutcome = some .complete ∧ t.ws.codes = .replicate 8 0)) ∧
  (∀ (t : Nat) (s : State),
    let toEnd := ∃ x, s.sq.taken = some x ∧ x.target = .finish
    (toEnd → sampleEnd t s = some .complete) ∧
    (¬ toEnd → 4000000000 ≤ t → sampleEnd t s = some .limit) ∧
    (¬ toEnd → t < 4000000000 → sampleEnd t s = none)) ∧
  (∀ (count : Nat) (o : RunOutcome) (s : State), sampleEnd (s.runTimeAt count) s = some o →
    runSample count s = (runEnd o s, .replicate 8 0))

/-- R170. -/
def Obligations.GapEndStartsOrEndsTheChain : Prop :=
  ∀ (e : Nat) (s : State), s.resetLine = false → s.sq.state = .gap → s.sq.gapEnd = some e → e ≤ s.count →
    let go := s.rs.records.length ≤ 638 ∧ s.al.v.state = .ready ∧ s.al.i.state = .ready
    (go → exec .gapEnd s = .next (settle (startRun s.count false s))) ∧
    (¬ go →
      exec .gapEnd s = .next (settle (waitEnded s)))

/-- R42, R45, R100, R106, R154, R156, R157: the step whose event decrements a counter to zero. A consumer that ends the run
before the counted event is handed leaves the counter (log 3). The row is exactly the row it names where that row's ACTIVE
edge or entry, due now, finds the counter at 1, and nothing but the end of the step elsewhere: the model's choice (log 4). An
edge that commands the breaker is judged after a sample 0 that comes before it (`firstSampleFirst`; R117, log 43). -/
def Obligations.CountedEventReachesZero : Prop :=
  (∀ (c : Fin 4) (via : CountedStep) (s : State), s.resetLine = false → decrementDue c via s = true →
    ∃ t, exec (.decrementToZero c via) s = .next t ∧ (t.sq.counters[c] = 0 ∨ t.inRun = false)) ∧
  (∀ (c : Fin 4) (k : Fin 12) (first : Nat) (samples : List Bool) (s : State), s.resetLine = false →
    s.inRun = true → s.ci.inputs[k].qualifier = .candidate first samples → samples.length = 3 →
    2 ≤ (samples.filter (fun l => l = true)).length → s.ci.inputs[k].settled = false →
    s.ci.inputs[k].role = .timing → s.st.sources[c] = .edge k.succ → s.sq.counters[c] = 1 →
    ∃ t, exec (.decrementToZero c (.qualification k.succ)) s = .next t ∧ t.sq.counters[c] = 0) ∧
  (∀ (c : Fin 4) (s : State), s.resetLine = false →
    let trips (role : Role) (v : State) : Prop := ∃ p, v.bs.poles.get p = .closed ∧
      (role = .trip3P ∨ (role = .tripA ∧ p = .a) ∨ (role = .tripB ∧ p = .b) ∨ (role = .tripC ∧ p = .c))
    let closes (v : State) : Prop := v.bs.spring = .charged ∧ (∃ p, v.bs.poles.get p = .opened) ∧
      ∀ p, v.bs.poles.get p = .closed ∨ v.bs.poles.get p = .opened
    let zeroes (k : Fin 12) (u : State) : Prop :=
      let v := firstSampleFirst k true u
      let role := v.ci.inputs[k].role
      v.inRun = true ∧ u.ci.inputs[k].settled = false ∧ v.sq.counters[c] = 1 ∧
        (v.st.sources[c] = .edge k.succ ∨ (v.st.sources[c] = .tripAccepted ∧ trips role v) ∨
          (v.st.sources[c] = .closeAccepted ∧ role = .close ∧ closes v))
    (∀ k, (commandWaits k s → firstSampleFirst k true s = gridInstant s) ∧
      (¬ commandWaits k s → firstSampleFirst k true s = s)) ∧
    (∀ k : Fin 12,
      let x := s.ci.inputs[k]
      onlyWhenDue (.decrementToZero c (.qualification k.succ))
        (zeroes k s ∧ ∃ first samples, x.qualifier = .candidate first samples ∧ samples.length = 3 ∧
          2 ≤ (samples.filter (fun l => l = true)).length) (exec (.qualification k.succ) s) s ∧
      onlyWhenDue (.decrementToZero c (.windowEnd k.succ))
        (zeroes k s ∧ presentMajority x.polarity x.history = true ∧ s.ci.nextSample = s.count + 100 ∧
          ∃ last, x.qualifier = .window last ∧ last ≤ s.count) (exec (.windowEnd k.succ) s) s) ∧
    exec (.decrementToZero c (.qualification 0)) s = .next (settle s) ∧
    exec (.decrementToZero c (.windowEnd 0)) s = .next (settle s) ∧
    (∀ tag input level : Byte, onlyWhenDue (.decrementToZero c (.inject tag input level))
      (s.cl.inService = none ∧ level = 1 ∧
        ∃ k : Fin 12, input.toNat = k.val + 1 ∧ s.ci.inputs[k].mode = .injected ∧
          zeroes k (putCl { s.cl with inService := some ⟨tag, .inject input level⟩ } s))
      (exec (.inject tag input level) s) s) ∧
    onlyWhenDue (.decrementToZero c .gridInstant)
      (sampleHere s ∧ ∃ n e, entryDue s = some n ∧ s.st.entries[n] = some e ∧ s.st.sources[c] = .entry n ∧
        (e.loads[c]).getD s.sq.counters[c] = 1) (exec .gridInstant s) s)

/-- R48, R78, R118, R127, R166 to R169, R180, R184: what every run end does before its RUN_END record (the visit's end, the
pending INPUT_EDGE records, CLIP END, RESOLVED), and what it leaves. The records that these steps offer are told by
QualificationJudgesTheCandidate (`writePending`), CodesStayWithinTheirLimits (`closeClip`) and StateEntrySetsTheVisit
(`endVisit`). SYNC IN first among the pending records is log 16; that the clip episodes close in channel order is the
model's choice (log 26); the notice's snapshot is that of step 9 (log 12). A first state cleared during the run is held as
it is (log 36). The RESOLVED records are offered before the outputs follow, which a FILL snapshot of one shows (log 35). -/
def Obligations.RunEndClosesTheRun : Prop :=
  (∀ (o : RunOutcome) (t : Nat) (s : State),
    let cut : Bool := o = .halted || o = .ampFault || o = .limit
    let visit := endVisit cut t { s with sq := { s.sq with taken := none, guard := none, entrySample := false } }
    let edges := (List.finRange 12).foldl (writePending t) (writePendingSync t visit)
    let clips := (List.finRange 8).foldl (closeClip t) edges
    let waves : State := { clips with ws := { clips.ws with live := .replicate 8 .cleared, decay := 0, r := 0, dRef := 0 } }
    let resolved := resolvePole t (resolvePole t (resolvePole t waves .a) .b) .c
    closeAccounts o t s =
      { resolved with bs := { resolved.bs with
          spring := if resolved.bs.spring = .charged then .charged else .charging none
          discrepancy := .idle, active := false } }) ∧
  (∀ (t : Nat) (s : State),
    let x := s.ci.sync
    (x.pendingEdge = none → writePendingSync t s = s) ∧
    (∀ e, x.pendingEdge = some e →
      writePendingSync t s =
        offerRun t (.inputEdge 0 e.direction e.edgeTime e.noise e.glitches 0 e.injected)
          (putSync { x with pendingEdge := none } s))) ∧
  (∀ (t : Nat) (p : Pole) (s : State),
    (s.bs.poles.get p = .closed ∨ s.bs.poles.get p = .opened → resolvePole t s p = s) ∧
    (s.bs.poles.get p ≠ .closed → s.bs.poles.get p ≠ .opened →
      resolvePole t s p = offerRun t (.breaker (.pole p) .resolved none) (putPole p .opened s))) ∧
  ∀ (o : RunOutcome) (s : State),
    let t := runEnd o s
    let accounts := closeAccounts o s.now s
    let cut := o = .halted ∨ o = .ampFault ∨ o = .limit
    let expects := openItems .expect s.asmt.visit
    let forbids := openItems .forbid s.asmt.visit
    t.inRun = false ∧ t.sq.lastOutcome = some o ∧ t.sq.current = none ∧ t.sq.taken = none ∧ t.sq.guard = none ∧
      t.sq.marks = s.sq.marks ∧ t.sq.counters = s.sq.counters ∧ t.sq.visits = s.sq.visits ∧
      t.sq.visited = s.sq.visited ∧
      t.sq.runNumber = s.sq.runNumber ∧ t.asmt.visit = none ∧ t.tb = { s.tb with latch := none } ∧
      (fourItems s.asmt →
        t.asmt.pass = s.asmt.pass + (if cut then 0 else forbids) ∧
        t.asmt.nonPass = s.asmt.nonPass + expects + (if cut then forbids else 0)) ∧
      (∀ k : Fin 12, t.ci.inputs[k] = { s.ci.inputs[k] with pendingEdge := none }) ∧
      t.ci.sync = { s.ci.sync with pendingEdge := none } ∧ t.ci.nextSample = s.ci.nextSample ∧
      t.bs.active = false ∧ t.bs.discrepancy = .idle ∧ t.bs.settings = s.bs.settings ∧
      (∀ p, t.bs.poles.get p =
        if s.bs.poles.get p = .closed ∨ s.bs.poles.get p = .opened then s.bs.poles.get p else .opened) ∧
      (t.bs.spring = .charged ↔ s.bs.spring = .charged) ∧ (∀ a, t.bs.spring ≠ .charging (some a)) ∧
      t.ws.live = .replicate 8 .cleared ∧ t.ws.r = 0 ∧ t.ws.dRef = 0 ∧ t.ws.decay = 0 ∧ t.bo.pattern = 0 ∧
      t.st = s.st ∧ t.al = s.al ∧
      (∃ seq,
        t.rs.records.getLast? =
          some ⟨seq, s.sq.runNumber, s.now, .runEnd o s.now s.sq.visited t.asmt.pass t.asmt.nonPass
            (match (wrapNumbers accounts.rs).window with | some w => w.lost | none => 0)⟩) ∧
      t.rs.records = (accounts.rs.offer s.sq.runNumber s.now (.runEnd o s.now s.sq.visited t.asmt.pass t.asmt.nonPass
        (match (wrapNumbers accounts.rs).window with | some w => w.lost | none => 0))).records ∧
      t.rs.window = none ∧
      (∃ x, t.cl.notice = some ⟨.runEnd, x⟩ ∧ x.lastOutcome = some o ∧ x.current = none ∧
        x.runNumber = s.sq.runNumber ∧ x.fill = t.rs.records.length) ∧
      (∀ r, s.sq.settings = some r →
        (o = .complete → r.mode = .repeated → 0 < s.sq.remainder →
          t.sq.state = .gap ∧ t.sq.gapEnd = some (s.count + 10 * r.gap)) ∧
        (o = .complete → r.mode = .triggered → t.sq.state = .armed ∧ t.sq.settings = some r) ∧
        (o ≠ .complete ∨ r.mode = .single ∨ (r.mode = .repeated ∧ s.sq.remainder = 0) →
          t.sq.state = .idle ∧ t.sq.settings = none))

/-- R28, R30, R55, R57, R58, R62, R90, R116, R127, R151 to R155: a run that starts at T0: every block as the run start
leaves it, the RUN_START record, the first state's entry and what it leaves, and the elapsed samples computed from it. A
first state that is EMPTY (cleared during the run before: log 36) is not entered. Every run start adopts the pending
correction (R28, R30) and latches the c then in force, but for a run that was armed when a calibration finished, which
latches the old correction as R151 says; that R151 sets step 2 of R30 aside there is the model's reading (log 10). The
sample at the present count is elapsed wherever the last grid instant was at this count (log 28). The entry is made in the
run start's own step and sample 0 follows (log 13), so D is here the DC mode's value on every current channel, one whose
pole starts OPEN included: R65's and R116's D = 0 there comes in sample 0, with the positions that stages 1 to 3 leave (log
14; `dropOpenDc`, in TimedOperationsEndAtTheSample and CodesStayWithinTheirLimits). -/
def Obligations.RunStartEntersTheFirstState : Prop :=
  (∀ (r : RunSettings) (internal : Bool) (t0 : Nat) (s : State), s.sq.settings = some r → t0 ≤ s.count →
    let c := s.tb.pendingC.getD s.tb.c
    let cRun := if s.sq.resultHeld then s.tb.c else c
    let run := if s.sq.runNumber = 65535 then 1 else s.sq.runNumber + 1
    let position (closed : Bool) : Position := if closed then .closed else .opened
    let poles : PerPole Position := ⟨position s.bs.settings.initialClosed.a, position s.bs.settings.initialClosed.b,
      position s.bs.settings.initialClosed.c⟩
    let spring : Spring := if s.bs.settings.initialCharged then .charged else .charging (some 0)
    let fresh (x : AmpGroup) : AmpGroup := { x with overRun := .replicate 4 0, episode := .replicate 4 false }
    let d := s.count - t0
    let elapsed := (d + 499) / 500 + (if d % 500 = 0 ∧ s.ws.lastGrid = some s.count then 1 else 0)
    let started : State := { s with
      sq := { s.sq with
        remainder := if r.mode = .repeated then s.sq.remainder - 1 else s.sq.remainder
        runNumber := run, current := none, taken := none, guard := none, visits := .replicate 24 0, visited := 0
        marks := 0, counters := .replicate 4 0, gapEnd := none, entrySample := false }
      asmt := .reset
      tb := { s.tb with c := c, pendingC := none, latch := some ⟨t0, cRun⟩ }
      ws := { s.ws with live := .replicate 8 .cleared, decay := 0, r := 0, dRef := increment r.frequency cRun }
      al := ⟨fresh s.al.v, fresh s.al.i⟩
      bs := { s.bs with poles := poles, spring := spring, discrepancy := .idle, active := true }
      bo := { s.bo with
        pattern := 0, outputs := .ofFn fun k => sourceValue poles spring 0 true s.bo.bits[k] s.bo.sources[k] } }
    let told := offer run 0
      (.runStart r.mode r.trigger r.first r.frequency cRun (if s.tb.epoch then some s.tb.second else none)
        (s.tb.state = .holdover || internal)) started
    let ready : State := { told with sq := { told.sq with state := .running, resultHeld := false } }
    startRun t0 internal s = runElapsed elapsed t0 (enterState r.first 0 ready) ∧
    (s.st.entries[r.first] = none → enterState r.first 0 ready = ready)) ∧
  (∀ (r : RunSettings) (e : Entry) (internal : Bool) (t0 : Nat) (s : State), s.sq.settings = some r →
    s.st.entries[r.first] = some e → t0 ≤ s.count → s.rs.records.length ≤ 638 → s.rs.nextSeq < 4294967295 →
    let c := s.tb.pendingC.getD s.tb.c
    let cRun := if s.sq.resultHeld then s.tb.c else c
    let run := if s.sq.runNumber = 65535 then 1 else s.sq.runNumber + 1
    let position (closed : Bool) : Position := if closed then .closed else .opened
    let d := s.count - t0
    let elapsed := (d + 499) / 500 + (if d % 500 = 0 ∧ s.ws.lastGrid = some s.count then 1 else 0)
    let second : Record := ⟨s.rs.nextSeq + 1, run, 0, .stateEntry r.first 1 0 none none none none⟩
    let first : Record := ⟨s.rs.nextSeq, run, 0,
      .runStart r.mode r.trigger r.first r.frequency cRun (if s.tb.epoch then some s.tb.second else none)
        (s.tb.state = .holdover || internal)⟩
    ∃ t, startRun t0 internal s = runElapsed elapsed t0 t ∧
      t.sq.state = .running ∧ t.sq.runNumber = run ∧ t.sq.current = some r.first ∧ t.sq.taken = none ∧
      t.sq.marks = 0 ∧ t.sq.visits[r.first] = 1 ∧ t.sq.visited = 1 ∧ t.sq.entrySample = true ∧
      t.sq.remainder = (if r.mode = .repeated then s.sq.remainder - 1 else s.sq.remainder) ∧
      t.sq.resultHeld = false ∧
      t.tb = { s.tb with c := c, pendingC := none, latch := some ⟨t0, cRun⟩ } ∧
      t.bs.active = true ∧ t.bs.discrepancy = .idle ∧
      t.bs.poles = ⟨position s.bs.settings.initialClosed.a, position s.bs.settings.initialClosed.b,
        position s.bs.settings.initialClosed.c⟩ ∧
      t.bs.spring = (if s.bs.settings.initialCharged then .charged else .charging (some 0)) ∧
      t.ws.r = 0 ∧ t.ws.dRef = increment r.frequency cRun ∧ t.ws.decay = e.decay ∧ t.bo.pattern = e.pattern ∧
      (∀ n : Fin 4, t.sq.counters[n] =
        if s.st.sources[n] = .entry r.first then (e.loads[n]).getD 0 - 1 else (e.loads[n]).getD 0) ∧
      (∀ m : Fin 24, m ≠ r.first → t.sq.visits[m] = 0) ∧
      t.sq.guard = (if 0 < e.guard then some ⟨e.guard, none⟩ else none) ∧
      t.asmt.visit = some ⟨r.first, 1, 0, e.items.map fun x => ⟨x, none, none⟩⟩ ∧
      (∀ ch : Fin 8,
        let p := e.channels[ch]
        let x := t.ws.live[ch]
        (ch = 7 → s.ws.ieMode = .residual → x = .cleared) ∧
        (ch ≠ 7 ∨ s.ws.ieMode = .independent →
          x.theta = (if p.phaseMode = .keep then 0 else BitVec.ofNat 32 (roundNat (p.angle * 2 ^ 32) 36000)) ∧
          x.dTheta = increment p.frequency cRun ∧ x.aFix = (p.amplitude : Int) * 65536 ∧ x.sPrev = 0 ∧ x.clip = false ∧
          x.d = (if ch.val < 4 ∨ p.dcMode = .noDc ∨ p.dcMode = .holdDc then 0
            else -sineCode p.amplitude x.theta * 65536))) ∧
      (∀ k : Fin 8, t.bo.outputs[k] =
        sourceValue t.bs.poles t.bs.spring e.pattern true s.bo.bits[k] s.bo.sources[k]) ∧
      t.asmt.pass = 0 ∧ t.asmt.nonPass = 0 ∧ t.count = s.count ∧ t.al.v.state = s.al.v.state ∧
      (∀ g, (t.al.get g).overRun = .replicate 4 0 ∧ (t.al.get g).episode = .replicate 4 false) ∧
      (s.rs.records.length ≤ 637 →
        t.rs.records = s.rs.records ++ [first, second] ∧ t.rs.window = some ⟨run, 0⟩) ∧
      (s.rs.records.length = 638 → t.rs.records = s.rs.records ++ [first] ∧ t.rs.window = some ⟨run, 1⟩)) ∧
  (∀ (count n : Nat) (s : State),
    let u := (runSample count s).1
    runElapsed 0 count s = { s with ws := { s.ws with nextGrid := count } } ∧
    (u.inRun = true → runElapsed (n + 1) count s = runElapsed n (count + 500) u) ∧
    (u.inRun = false → count ≤ u.count → ∃ k,
      runElapsed (n + 1) count s = { u with ws := { u.ws with nextGrid := count + 500 * (k + 1) } } ∧
        count + 500 * k ≤ u.count ∧ u.count < count + 500 * (k + 1)))

/-- R60 to R66, R126, R154, R155, R172 to R179, R182, R184: what the entry of a state sets, with its record and the end
of the visit before it, and that the rest is unchanged; the increment of a frequency; and how the items of a visit are
decided by an event and at the visit's end, in item order (log 26). D is here the DC mode's value on every current
channel: where the pole is OPEN or CLOSING at the entry sample, R65's 0 comes later in that sample, with the positions
that stages 1 to 3 leave (log 14; `dropOpenDc`, in CodesStayWithinTheirLimits), and a CONTINUE entry at the sample at
which the pole closes keeps R65's value (log 41). -/
def Obligations.StateEntrySetsTheVisit : Prop :=
  (∀ (n : Fin 24) (time : Nat) (e : Entry) (s : State), s.st.entries[n] = some e →
    let t := enterState n time s
    let loaded (c : Fin 4) : Nat := (e.loads[c]).getD s.sq.counters[c]
    let visit := min 65535 (s.sq.visits[n] + 1)
    let fromState := if s.asmt.visit.isSome then s.sq.current else none
    let ended := endVisit false time s
    let record : RecordBody :=
      .stateEntry n visit time fromState (if fromState.isSome then s.sq.taken.map (·.index) else none)
        (s.sq.taken.bind fun x => if x.exitTime = time then none else some x.exitTime)
        (s.sq.taken.bind (·.causeTime))
    t.sq.state = .running ∧ t.sq.current = some n ∧ t.sq.taken = none ∧
      (∀ c : Fin 4, t.sq.counters[c] = if s.st.sources[c] = .entry n then loaded c - 1 else loaded c) ∧
      t.sq.visits[n] = visit ∧ (∀ m : Fin 24, m ≠ n → t.sq.visits[m] = s.sq.visits[m]) ∧
      t.sq.visited = s.sq.visited + 1 ∧ t.sq.marks = s.sq.marks ∧ t.sq.runNumber = s.sq.runNumber ∧
      t.sq.guard = (if 0 < e.guard then some ⟨time + e.guard, none⟩ else none) ∧ t.sq.entrySample = true ∧
      t.asmt.visit = some ⟨n, visit, time, e.items.map fun x => ⟨x, none, none⟩⟩ ∧
      t.asmt.pass = ended.asmt.pass ∧ t.asmt.nonPass = ended.asmt.nonPass ∧
      t.rs.records = (ended.rs.offer s.sq.runNumber time record).records ∧
      t.rs.nextSeq = (ended.rs.offer s.sq.runNumber time record).nextSeq ∧
      t.rs.window = (ended.rs.offer s.sq.runNumber time record).window ∧
      t.bo.pattern = e.pattern ∧ t.ws.decay = e.decay ∧ t.ws.r = s.ws.r ∧
      (t.bs = s.bs ∧ t.al = s.al ∧ t.tb = s.tb ∧ t.st = s.st ∧ t.ci = s.ci ∧ t.cl = { s.cl with notice := t.cl.notice } ∧
        t.ws = { s.ws with live := t.ws.live, decay := e.decay } ∧
        t.bo = { s.bo with pattern := e.pattern, outputs := t.bo.outputs } ∧
        t.sq = { s.sq with
          state := .running, current := some n, taken := none, counters := t.sq.counters, visits := t.sq.visits
          visited := s.sq.visited + 1, guard := t.sq.guard, entrySample := true } ∧
        t.count = s.count ∧ t.resetLine = s.resetLine ∧ t.contactLines = s.contactLines ∧ t.syncLine = s.syncLine ∧
        t.free = s.free ∧ t.pending = s.pending) ∧
      (∀ k : Fin 8, t.bo.outputs[k] =
        sourceValue s.bs.poles s.bs.spring e.pattern true s.bo.bits[k] s.bo.sources[k]) ∧
      ∀ ch : Fin 8,
        let p := e.channels[ch]
        let old := s.ws.live[ch]
        let x := t.ws.live[ch]
        let angle : Word := BitVec.ofNat 32 (roundNat (p.angle * 2 ^ 32) 36000)
        let steps := 20 * p.rampTime
        let exact := roundDiv (((p.rampTarget : Int) - p.amplitude) * 65536) steps
        x.sPrev = old.sPrev ∧ x.clip = old.clip ∧
        (ch = 7 → s.ws.ieMode = .residual →
          x = { LiveRecord.cleared with sPrev := old.sPrev, clip := old.clip }) ∧
        (ch ≠ 7 ∨ s.ws.ieMode = .independent →
          x.dTheta = increment p.frequency s.cRun ∧
          x.theta = (if p.phaseMode = .keep then old.theta else if p.frequency = 0 then angle else s.ws.r + angle) ∧
          x.aFix = (p.amplitude : Int) * 65536 ∧
          (steps = 0 ∨ p.rampTarget = p.amplitude → x.rampStep = 0 ∧ x.rampTarget = p.amplitude) ∧
          (steps ≠ 0 → p.rampTarget ≠ p.amplitude → x.rampTarget = p.rampTarget ∧
            x.rampStep = (if exact ≠ 0 then exact else if p.amplitude < p.rampTarget then 1 else -1)) ∧
          x.d = (if ch.val < 4 ∨ p.dcMode = .noDc then 0
            else if p.dcMode = .holdDc then old.d
            else (old.sPrev - sineCode p.amplitude x.theta) * 65536))) ∧
  (∀ (f : Nat) (c : Int), f ≤ 1000000 → -100000 ≤ c → c ≤ 100000 →
    let n : Int := (increment f c).toNat
    let num : Int := f * 2 ^ 32 * 1000000000
    let den : Int := 20000000 * (1000000000 + c)
    -- n is the integer nearest to num / den, a half rounded up
    2 * n * den ≤ 2 * num + den ∧ 2 * num + den < 2 * (n + 1) * den) ∧
  (∀ (subject : Subject) (te head : Nat) (v : Visit) (s : State), s.asmt.visit = some v → v.items.length ≤ 4 →
    let time : Int := (te : Int) - v.entryTime
    let decided (x : ItemRun) : Option Decision :=
      if x.decision.isSome ∨ x.item.subject ≠ subject then none
      else if x.item.kind = .expect then
        some (if time < x.item.lo then .early else if time ≤ x.item.hi then .pass else .late)
      else if (x.item.lo : Int) ≤ time ∧ time ≤ x.item.hi then some .fail else none
    let t := assessEvent subject te head s
    t.asmt.visit = some { v with
      items := v.items.map fun x => match decided x with
        | some d => { x with decision := some d, measured := some time }
        | none => x } ∧
    t.asmt.pass = s.asmt.pass + (v.items.filter fun x => decided x = some .pass).length ∧
    t.asmt.nonPass =
      s.asmt.nonPass + (v.items.filter fun x => (decided x).isSome && decided x ≠ some .pass).length ∧
    t = [0, 1, 2, 3].foldl (judgeItem subject te head) s ∧
    (∀ k x, v.items[k]? = some x →
      (decided x = none → judgeItem subject te head s k = s) ∧
      (∀ d, decided x = some d →
        judgeItem subject te head s k =
          offerRun head (.assess v.state v.count k d (some time))
            { s with asmt :=
              { visit := some { v with items := v.items.set k { x with decision := some d, measured := some time } }
                pass := if d = .pass then s.asmt.pass + 1 else s.asmt.pass
                nonPass := if d = .pass then s.asmt.nonPass else s.asmt.nonPass + 1 } }))) ∧
  (∀ (cut : Bool) (head : Nat) (s : State), fourItems s.asmt →
    let t := endVisit cut head s
    let u := [0, 1, 2, 3].foldl (endItem cut head) s
    t = { u with asmt := { u.asmt with visit := none } } ∧
    t.asmt.pass = s.asmt.pass + (if cut then 0 else openItems .forbid s.asmt.visit) ∧
    t.asmt.nonPass = s.asmt.nonPass + openItems .expect s.asmt.visit +
      (if cut then openItems .forbid s.asmt.visit else 0) ∧
    (∀ v k x, s.asmt.visit = some v → v.items[k]? = some x →
      let d : Decision := if cut then .abandoned else if x.item.kind = .expect then .missing else .pass
      (x.decision.isSome → endItem cut head s k = s) ∧
      (x.decision = none →
        endItem cut head s k =
          offerRun head (.assess v.state v.count k d none)
            { s with asmt :=
              { visit := some { v with items := v.items.set k { x with decision := some d, measured := none } }
                pass := if d = .pass then s.asmt.pass + 1 else s.asmt.pass
                nonPass := if d = .pass then s.asmt.nonPass else s.asmt.nonPass + 1 } })))

/-! ### The report store -/

/-- R188, R189, R191, R192, R193, R200: an offer's number, admission and loss, the run window it opens or closes, the
number wrap, and the FILL notice. -/
def Obligations.OffersAreNumberedAndAdmitted : Prop :=
  (∀ (run time : Nat) (body : RecordBody) (rs : ReportStore), rs.nextSeq ≤ 4294967295 →
    (∀ m t f q c a b, body ≠ .runStart m t f q c a b) → (∀ o t v p n l, body ≠ .runEnd o t v p n l) →
    let stored : ReportStore :=
      { rs with records := rs.records ++ [⟨rs.nextSeq, run, time, body⟩], nextSeq := rs.nextSeq + 1 }
    (rs.window = none → rs.records.length ≤ 639 → rs.offer run time body = stored) ∧
    (rs.window = none → 639 < rs.records.length →
      rs.offer run time body = { rs with nextSeq := rs.nextSeq + 1 }) ∧
    (∀ w, rs.window = some w → rs.records.length ≤ 638 → rs.offer run time body = stored) ∧
    (∀ w, rs.window = some w → 638 < rs.records.length →
      rs.offer run time body =
        { rs with nextSeq := rs.nextSeq + 1, window := some { w with lost := min 4294967295 (w.lost + 1) } })) ∧
  (∀ (run time : Nat) (o : RunOutcome) (t v p n l : Nat) (rs : ReportStore), rs.nextSeq ≤ 4294967295 →
    rs.offer run time (.runEnd o t v p n l) =
      { rs with records := rs.records ++ [⟨rs.nextSeq, run, time, .runEnd o t v p n l⟩]
                nextSeq := rs.nextSeq + 1, window := none }) ∧
  (∀ (run time : Nat) (m : RunMode) (g : RunTrigger) (n : Fin 24) (f : Nat) (c : Int) (a : Option Nat) (h : Bool)
    (rs : ReportStore), rs.nextSeq ≤ 4294967295 →
    (rs.records.length ≤ 638 →
      rs.offer run time (.runStart m g n f c a h) =
        { rs with records := rs.records ++ [⟨rs.nextSeq, run, time, .runStart m g n f c a h⟩]
                  nextSeq := rs.nextSeq + 1, window := some ⟨run, 0⟩ }) ∧
    (638 < rs.records.length →
      rs.offer run time (.runStart m g n f c a h) =
        { rs with nextSeq := rs.nextSeq + 1, window := some ⟨run, 1⟩ })) ∧
  (∀ (run time : Nat) (body : RecordBody) (rs : ReportStore), 4294967295 < rs.nextSeq →
    rs.offer run time body =
      ReportStore.offer run time body
        { records := [], nextSeq := 1, fillArmed := true
          window := rs.window.map fun w =>
            { w with lost := min 4294967295 (w.lost + (rs.records.filter fun r => r.run = w.run).length) } }) ∧
  (∀ (run time : Nat) (body : RecordBody) (s : State), s.rs.nextSeq ≤ 4294967295 →
    let rs := s.rs.offer run time body
    let raises := s.rs.records.length = 479 ∧ rs.records.length = 480 ∧ s.rs.fillArmed = true
    (raises →
      offer run time body s = raiseNotice .fill { s with rs := { rs with fillArmed := false } }) ∧
    (¬ raises → offer run time body s = { s with rs := rs }))

/-- R195, R196, R198, R200, R205: REPREAD, and the bytes of every kind of record that it returns. The next number shown
above 4,294,967,295 is the model's free value (log 19). -/
def Obligations.RepreadTakesTheOldest : Prop :=
  (∀ (tag n : Byte) (s : State), listening s →
    let k := clampNat 1 24 n.toNat
    let m := min k s.rs.records.length
    let rest := s.rs.records.drop m
    let armed := if s.rs.records.length - m < 320 then true else s.rs.fillArmed
    let shown : Nat := if s.rs.nextSeq ≤ 4294967295 then s.rs.nextSeq else Config.nextSeqAtTop.toNat
    exec (.repread tag n) s =
      .next (answering ⟨tag, .repread n⟩ (if 1 ≤ n.toNat ∧ n.toNat ≤ 24 then .ok else .clamped)
        ([BitVec.ofNat 8 m] ++ leBytes 2 (s.rs.records.length - m) ++ leBytes 4 shown ++
          ((s.rs.records.take m).map Record.bytes).flatten)
        { s with rs := { s.rs with records := rest, fillArmed := armed } })) ∧
  (∀ (seq run time : Nat) (body : RecordBody), recordLaidOut ⟨seq, run, time, body⟩)

/-! ### What every step keeps -/

/-- R121, R123, R124, R125: after every step the outputs stand as their sources give; and the value of each of the 13
sources. -/
def Obligations.EveryStepLeavesTheOutputsFollowing : Prop :=
  (∀ s t : State, outputsFollow s → step s = .next t → outputsFollow t) ∧
  (∀ (poles : PerPole Position) (spring : Spring) (pattern : BitVec 8) (running : Bool) (bit : Fin 8),
    let value := sourceValue poles spring pattern running bit
    let aClosed (p : Pole) : Prop := poles.get p = .closed ∨ ∃ start, poles.get p = .tripping start
    value .fixedOpen = false ∧ value .fixedClosed = true ∧
    (value .poleAA = true ↔ aClosed .a) ∧ (value .poleAB = true ↔ ¬ aClosed .a) ∧
    (value .poleBA = true ↔ aClosed .b) ∧ (value .poleBB = true ↔ ¬ aClosed .b) ∧
    (value .poleCA = true ↔ aClosed .c) ∧ (value .poleCB = true ↔ ¬ aClosed .c) ∧
    (value .allA = true ↔ ∀ p, aClosed p) ∧ (value .anyB = true ↔ ∃ p, ¬ aClosed p) ∧
    (value .spring = true ↔ spring = .charged) ∧ value .stateBit = pattern.getLsbD bit.val ∧
    value .runActive = running)

/-- R30, R95, R169, R187, R189, R191, R192: every step keeps the run coherent. -/
def Obligations.EveryStepKeepsTheRunCoherent : Prop :=
  ∀ s t : State, runCoherent s → step s = .next t → runCoherent t

/-- R4, R5, R8: every step keeps the request slots coherent. -/
def Obligations.EveryStepKeepsTheSlotsCoherent : Prop :=
  ∀ s t : State, slotsCoherent s.cl → step s = .next t → slotsCoherent t.cl

/-- The three properties hold right after a hardware reset. -/
def Obligations.ResetIsCoherent : Prop :=
  outputsFollow State.reset ∧ runCoherent State.reset ∧ slotsCoherent State.reset.cl
end

