-- ==== Sys2Proof/Laws/State.lean ====
section
/-! SUPPORT. What each named update of the state changes and leaves: one lemma per field, true by definition. -/

namespace Sys2Proof.Machine

/-! ### putCl -/

@[simp] theorem putCl_count (x : ControlLink) (s : State) : (putCl x s).count = s.count := rfl
@[simp] theorem putCl_resetLine (x : ControlLink) (s : State) : (putCl x s).resetLine = s.resetLine := rfl
@[simp] theorem putCl_contactLines (x : ControlLink) (s : State) : (putCl x s).contactLines = s.contactLines := rfl
@[simp] theorem putCl_syncLine (x : ControlLink) (s : State) : (putCl x s).syncLine = s.syncLine := rfl
@[simp] theorem putCl_cl (x : ControlLink) (s : State) :
    (putCl x s).cl = x := rfl
@[simp] theorem putCl_tb (x : ControlLink) (s : State) : (putCl x s).tb = s.tb := rfl
@[simp] theorem putCl_ci (x : ControlLink) (s : State) : (putCl x s).ci = s.ci := rfl
@[simp] theorem putCl_ws (x : ControlLink) (s : State) : (putCl x s).ws = s.ws := rfl
@[simp] theorem putCl_al (x : ControlLink) (s : State) : (putCl x s).al = s.al := rfl
@[simp] theorem putCl_bs (x : ControlLink) (s : State) : (putCl x s).bs = s.bs := rfl
@[simp] theorem putCl_bo (x : ControlLink) (s : State) : (putCl x s).bo = s.bo := rfl
@[simp] theorem putCl_st (x : ControlLink) (s : State) : (putCl x s).st = s.st := rfl
@[simp] theorem putCl_sq (x : ControlLink) (s : State) : (putCl x s).sq = s.sq := rfl
@[simp] theorem putCl_asmt (x : ControlLink) (s : State) : (putCl x s).asmt = s.asmt := rfl
@[simp] theorem putCl_rs (x : ControlLink) (s : State) : (putCl x s).rs = s.rs := rfl
@[simp] theorem putCl_free (x : ControlLink) (s : State) : (putCl x s).free = s.free := rfl
@[simp] theorem putCl_pending (x : ControlLink) (s : State) : (putCl x s).pending = s.pending := rfl

/-! ### putTb -/

@[simp] theorem putTb_count (x : TimeBase) (s : State) : (putTb x s).count = s.count := rfl
@[simp] theorem putTb_resetLine (x : TimeBase) (s : State) : (putTb x s).resetLine = s.resetLine := rfl
@[simp] theorem putTb_contactLines (x : TimeBase) (s : State) : (putTb x s).contactLines = s.contactLines := rfl
@[simp] theorem putTb_syncLine (x : TimeBase) (s : State) : (putTb x s).syncLine = s.syncLine := rfl
@[simp] theorem putTb_cl (x : TimeBase) (s : State) : (putTb x s).cl = s.cl := rfl
@[simp] theorem putTb_tb (x : TimeBase) (s : State) :
    (putTb x s).tb = x := rfl
@[simp] theorem putTb_ci (x : TimeBase) (s : State) : (putTb x s).ci = s.ci := rfl
@[simp] theorem putTb_ws (x : TimeBase) (s : State) : (putTb x s).ws = s.ws := rfl
@[simp] theorem putTb_al (x : TimeBase) (s : State) : (putTb x s).al = s.al := rfl
@[simp] theorem putTb_bs (x : TimeBase) (s : State) : (putTb x s).bs = s.bs := rfl
@[simp] theorem putTb_bo (x : TimeBase) (s : State) : (putTb x s).bo = s.bo := rfl
@[simp] theorem putTb_st (x : TimeBase) (s : State) : (putTb x s).st = s.st := rfl
@[simp] theorem putTb_sq (x : TimeBase) (s : State) : (putTb x s).sq = s.sq := rfl
@[simp] theorem putTb_asmt (x : TimeBase) (s : State) : (putTb x s).asmt = s.asmt := rfl
@[simp] theorem putTb_rs (x : TimeBase) (s : State) : (putTb x s).rs = s.rs := rfl
@[simp] theorem putTb_free (x : TimeBase) (s : State) : (putTb x s).free = s.free := rfl
@[simp] theorem putTb_pending (x : TimeBase) (s : State) : (putTb x s).pending = s.pending := rfl

/-! ### putInput -/

@[simp] theorem putInput_count (k : Fin 12) (x : ContactInput) (s : State) : (putInput k x s).count = s.count := rfl
@[simp] theorem putInput_resetLine (k : Fin 12) (x : ContactInput) (s : State) : (putInput k x s).resetLine = s.resetLine := rfl
@[simp] theorem putInput_contactLines (k : Fin 12) (x : ContactInput) (s : State) : (putInput k x s).contactLines = s.contactLines := rfl
@[simp] theorem putInput_syncLine (k : Fin 12) (x : ContactInput) (s : State) : (putInput k x s).syncLine = s.syncLine := rfl
@[simp] theorem putInput_cl (k : Fin 12) (x : ContactInput) (s : State) : (putInput k x s).cl = s.cl := rfl
@[simp] theorem putInput_tb (k : Fin 12) (x : ContactInput) (s : State) : (putInput k x s).tb = s.tb := rfl
@[simp] theorem putInput_ci (k : Fin 12) (x : ContactInput) (s : State) :
    (putInput k x s).ci = { s.ci with inputs := s.ci.inputs.set k x } := rfl
@[simp] theorem putInput_ws (k : Fin 12) (x : ContactInput) (s : State) : (putInput k x s).ws = s.ws := rfl
@[simp] theorem putInput_al (k : Fin 12) (x : ContactInput) (s : State) : (putInput k x s).al = s.al := rfl
@[simp] theorem putInput_bs (k : Fin 12) (x : ContactInput) (s : State) : (putInput k x s).bs = s.bs := rfl
@[simp] theorem putInput_bo (k : Fin 12) (x : ContactInput) (s : State) : (putInput k x s).bo = s.bo := rfl
@[simp] theorem putInput_st (k : Fin 12) (x : ContactInput) (s : State) : (putInput k x s).st = s.st := rfl
@[simp] theorem putInput_sq (k : Fin 12) (x : ContactInput) (s : State) : (putInput k x s).sq = s.sq := rfl
@[simp] theorem putInput_asmt (k : Fin 12) (x : ContactInput) (s : State) : (putInput k x s).asmt = s.asmt := rfl
@[simp] theorem putInput_rs (k : Fin 12) (x : ContactInput) (s : State) : (putInput k x s).rs = s.rs := rfl
@[simp] theorem putInput_free (k : Fin 12) (x : ContactInput) (s : State) : (putInput k x s).free = s.free := rfl
@[simp] theorem putInput_pending (k : Fin 12) (x : ContactInput) (s : State) : (putInput k x s).pending = s.pending := rfl

/-! ### putSync -/

@[simp] theorem putSync_count (x : SyncInput) (s : State) : (putSync x s).count = s.count := rfl
@[simp] theorem putSync_resetLine (x : SyncInput) (s : State) : (putSync x s).resetLine = s.resetLine := rfl
@[simp] theorem putSync_contactLines (x : SyncInput) (s : State) : (putSync x s).contactLines = s.contactLines := rfl
@[simp] theorem putSync_syncLine (x : SyncInput) (s : State) : (putSync x s).syncLine = s.syncLine := rfl
@[simp] theorem putSync_cl (x : SyncInput) (s : State) : (putSync x s).cl = s.cl := rfl
@[simp] theorem putSync_tb (x : SyncInput) (s : State) : (putSync x s).tb = s.tb := rfl
@[simp] theorem putSync_ci (x : SyncInput) (s : State) :
    (putSync x s).ci = { s.ci with sync := x } := rfl
@[simp] theorem putSync_ws (x : SyncInput) (s : State) : (putSync x s).ws = s.ws := rfl
@[simp] theorem putSync_al (x : SyncInput) (s : State) : (putSync x s).al = s.al := rfl
@[simp] theorem putSync_bs (x : SyncInput) (s : State) : (putSync x s).bs = s.bs := rfl
@[simp] theorem putSync_bo (x : SyncInput) (s : State) : (putSync x s).bo = s.bo := rfl
@[simp] theorem putSync_st (x : SyncInput) (s : State) : (putSync x s).st = s.st := rfl
@[simp] theorem putSync_sq (x : SyncInput) (s : State) : (putSync x s).sq = s.sq := rfl
@[simp] theorem putSync_asmt (x : SyncInput) (s : State) : (putSync x s).asmt = s.asmt := rfl
@[simp] theorem putSync_rs (x : SyncInput) (s : State) : (putSync x s).rs = s.rs := rfl
@[simp] theorem putSync_free (x : SyncInput) (s : State) : (putSync x s).free = s.free := rfl
@[simp] theorem putSync_pending (x : SyncInput) (s : State) : (putSync x s).pending = s.pending := rfl

/-! ### putGroup -/

@[simp] theorem putGroup_count (g : Group) (x : AmpGroup) (s : State) : (putGroup g x s).count = s.count := rfl
@[simp] theorem putGroup_resetLine (g : Group) (x : AmpGroup) (s : State) : (putGroup g x s).resetLine = s.resetLine := rfl
@[simp] theorem putGroup_contactLines (g : Group) (x : AmpGroup) (s : State) : (putGroup g x s).contactLines = s.contactLines := rfl
@[simp] theorem putGroup_syncLine (g : Group) (x : AmpGroup) (s : State) : (putGroup g x s).syncLine = s.syncLine := rfl
@[simp] theorem putGroup_cl (g : Group) (x : AmpGroup) (s : State) : (putGroup g x s).cl = s.cl := rfl
@[simp] theorem putGroup_tb (g : Group) (x : AmpGroup) (s : State) : (putGroup g x s).tb = s.tb := rfl
@[simp] theorem putGroup_ci (g : Group) (x : AmpGroup) (s : State) : (putGroup g x s).ci = s.ci := rfl
@[simp] theorem putGroup_ws (g : Group) (x : AmpGroup) (s : State) : (putGroup g x s).ws = s.ws := rfl
@[simp] theorem putGroup_al (g : Group) (x : AmpGroup) (s : State) :
    (putGroup g x s).al = s.al.put g x := rfl
@[simp] theorem putGroup_bs (g : Group) (x : AmpGroup) (s : State) : (putGroup g x s).bs = s.bs := rfl
@[simp] theorem putGroup_bo (g : Group) (x : AmpGroup) (s : State) : (putGroup g x s).bo = s.bo := rfl
@[simp] theorem putGroup_st (g : Group) (x : AmpGroup) (s : State) : (putGroup g x s).st = s.st := rfl
@[simp] theorem putGroup_sq (g : Group) (x : AmpGroup) (s : State) : (putGroup g x s).sq = s.sq := rfl
@[simp] theorem putGroup_asmt (g : Group) (x : AmpGroup) (s : State) : (putGroup g x s).asmt = s.asmt := rfl
@[simp] theorem putGroup_rs (g : Group) (x : AmpGroup) (s : State) : (putGroup g x s).rs = s.rs := rfl
@[simp] theorem putGroup_free (g : Group) (x : AmpGroup) (s : State) : (putGroup g x s).free = s.free := rfl
@[simp] theorem putGroup_pending (g : Group) (x : AmpGroup) (s : State) : (putGroup g x s).pending = s.pending := rfl

/-! ### putPole -/

@[simp] theorem putPole_count (p : Pole) (x : Position) (s : State) : (putPole p x s).count = s.count := rfl
@[simp] theorem putPole_resetLine (p : Pole) (x : Position) (s : State) : (putPole p x s).resetLine = s.resetLine := rfl
@[simp] theorem putPole_contactLines (p : Pole) (x : Position) (s : State) : (putPole p x s).contactLines = s.contactLines := rfl
@[simp] theorem putPole_syncLine (p : Pole) (x : Position) (s : State) : (putPole p x s).syncLine = s.syncLine := rfl
@[simp] theorem putPole_cl (p : Pole) (x : Position) (s : State) : (putPole p x s).cl = s.cl := rfl
@[simp] theorem putPole_tb (p : Pole) (x : Position) (s : State) : (putPole p x s).tb = s.tb := rfl
@[simp] theorem putPole_ci (p : Pole) (x : Position) (s : State) : (putPole p x s).ci = s.ci := rfl
@[simp] theorem putPole_ws (p : Pole) (x : Position) (s : State) : (putPole p x s).ws = s.ws := rfl
@[simp] theorem putPole_al (p : Pole) (x : Position) (s : State) : (putPole p x s).al = s.al := rfl
@[simp] theorem putPole_bs (p : Pole) (x : Position) (s : State) :
    (putPole p x s).bs = { s.bs with poles := s.bs.poles.put p x } := rfl
@[simp] theorem putPole_bo (p : Pole) (x : Position) (s : State) : (putPole p x s).bo = s.bo := rfl
@[simp] theorem putPole_st (p : Pole) (x : Position) (s : State) : (putPole p x s).st = s.st := rfl
@[simp] theorem putPole_sq (p : Pole) (x : Position) (s : State) : (putPole p x s).sq = s.sq := rfl
@[simp] theorem putPole_asmt (p : Pole) (x : Position) (s : State) : (putPole p x s).asmt = s.asmt := rfl
@[simp] theorem putPole_rs (p : Pole) (x : Position) (s : State) : (putPole p x s).rs = s.rs := rfl
@[simp] theorem putPole_free (p : Pole) (x : Position) (s : State) : (putPole p x s).free = s.free := rfl
@[simp] theorem putPole_pending (p : Pole) (x : Position) (s : State) : (putPole p x s).pending = s.pending := rfl

/-! ### putDiscrepancy -/

@[simp] theorem putDiscrepancy_count (x : Discrepancy) (s : State) : (putDiscrepancy x s).count = s.count := rfl
@[simp] theorem putDiscrepancy_resetLine (x : Discrepancy) (s : State) : (putDiscrepancy x s).resetLine = s.resetLine := rfl
@[simp] theorem putDiscrepancy_contactLines (x : Discrepancy) (s : State) : (putDiscrepancy x s).contactLines = s.contactLines := rfl
@[simp] theorem putDiscrepancy_syncLine (x : Discrepancy) (s : State) : (putDiscrepancy x s).syncLine = s.syncLine := rfl
@[simp] theorem putDiscrepancy_cl (x : Discrepancy) (s : State) : (putDiscrepancy x s).cl = s.cl := rfl
@[simp] theorem putDiscrepancy_tb (x : Discrepancy) (s : State) : (putDiscrepancy x s).tb = s.tb := rfl
@[simp] theorem putDiscrepancy_ci (x : Discrepancy) (s : State) : (putDiscrepancy x s).ci = s.ci := rfl
@[simp] theorem putDiscrepancy_ws (x : Discrepancy) (s : State) : (putDiscrepancy x s).ws = s.ws := rfl
@[simp] theorem putDiscrepancy_al (x : Discrepancy) (s : State) : (putDiscrepancy x s).al = s.al := rfl
@[simp] theorem putDiscrepancy_bs (x : Discrepancy) (s : State) :
    (putDiscrepancy x s).bs = { s.bs with discrepancy := x } := rfl
@[simp] theorem putDiscrepancy_bo (x : Discrepancy) (s : State) : (putDiscrepancy x s).bo = s.bo := rfl
@[simp] theorem putDiscrepancy_st (x : Discrepancy) (s : State) : (putDiscrepancy x s).st = s.st := rfl
@[simp] theorem putDiscrepancy_sq (x : Discrepancy) (s : State) : (putDiscrepancy x s).sq = s.sq := rfl
@[simp] theorem putDiscrepancy_asmt (x : Discrepancy) (s : State) : (putDiscrepancy x s).asmt = s.asmt := rfl
@[simp] theorem putDiscrepancy_rs (x : Discrepancy) (s : State) : (putDiscrepancy x s).rs = s.rs := rfl
@[simp] theorem putDiscrepancy_free (x : Discrepancy) (s : State) : (putDiscrepancy x s).free = s.free := rfl
@[simp] theorem putDiscrepancy_pending (x : Discrepancy) (s : State) : (putDiscrepancy x s).pending = s.pending := rfl

/-! ### putEntry -/

@[simp] theorem putEntry_count (n : Fin 24) (e : Option Entry) (s : State) : (putEntry n e s).count = s.count := rfl
@[simp] theorem putEntry_resetLine (n : Fin 24) (e : Option Entry) (s : State) : (putEntry n e s).resetLine = s.resetLine := rfl
@[simp] theorem putEntry_contactLines (n : Fin 24) (e : Option Entry) (s : State) : (putEntry n e s).contactLines = s.contactLines := rfl
@[simp] theorem putEntry_syncLine (n : Fin 24) (e : Option Entry) (s : State) : (putEntry n e s).syncLine = s.syncLine := rfl
@[simp] theorem putEntry_cl (n : Fin 24) (e : Option Entry) (s : State) : (putEntry n e s).cl = s.cl := rfl
@[simp] theorem putEntry_tb (n : Fin 24) (e : Option Entry) (s : State) : (putEntry n e s).tb = s.tb := rfl
@[simp] theorem putEntry_ci (n : Fin 24) (e : Option Entry) (s : State) : (putEntry n e s).ci = s.ci := rfl
@[simp] theorem putEntry_ws (n : Fin 24) (e : Option Entry) (s : State) : (putEntry n e s).ws = s.ws := rfl
@[simp] theorem putEntry_al (n : Fin 24) (e : Option Entry) (s : State) : (putEntry n e s).al = s.al := rfl
@[simp] theorem putEntry_bs (n : Fin 24) (e : Option Entry) (s : State) : (putEntry n e s).bs = s.bs := rfl
@[simp] theorem putEntry_bo (n : Fin 24) (e : Option Entry) (s : State) : (putEntry n e s).bo = s.bo := rfl
@[simp] theorem putEntry_st (n : Fin 24) (e : Option Entry) (s : State) :
    (putEntry n e s).st = { s.st with entries := s.st.entries.set n e } := rfl
@[simp] theorem putEntry_sq (n : Fin 24) (e : Option Entry) (s : State) : (putEntry n e s).sq = s.sq := rfl
@[simp] theorem putEntry_asmt (n : Fin 24) (e : Option Entry) (s : State) : (putEntry n e s).asmt = s.asmt := rfl
@[simp] theorem putEntry_rs (n : Fin 24) (e : Option Entry) (s : State) : (putEntry n e s).rs = s.rs := rfl
@[simp] theorem putEntry_free (n : Fin 24) (e : Option Entry) (s : State) : (putEntry n e s).free = s.free := rfl
@[simp] theorem putEntry_pending (n : Fin 24) (e : Option Entry) (s : State) : (putEntry n e s).pending = s.pending := rfl

/-! ### setSource -/

@[simp] theorem setSource_count (c : Fin 4) (x : CounterSource) (s : State) : (setSource c x s).count = s.count := rfl
@[simp] theorem setSource_resetLine (c : Fin 4) (x : CounterSource) (s : State) : (setSource c x s).resetLine = s.resetLine := rfl
@[simp] theorem setSource_contactLines (c : Fin 4) (x : CounterSource) (s : State) : (setSource c x s).contactLines = s.contactLines := rfl
@[simp] theorem setSource_syncLine (c : Fin 4) (x : CounterSource) (s : State) : (setSource c x s).syncLine = s.syncLine := rfl
@[simp] theorem setSource_cl (c : Fin 4) (x : CounterSource) (s : State) : (setSource c x s).cl = s.cl := rfl
@[simp] theorem setSource_tb (c : Fin 4) (x : CounterSource) (s : State) : (setSource c x s).tb = s.tb := rfl
@[simp] theorem setSource_ci (c : Fin 4) (x : CounterSource) (s : State) : (setSource c x s).ci = s.ci := rfl
@[simp] theorem setSource_ws (c : Fin 4) (x : CounterSource) (s : State) : (setSource c x s).ws = s.ws := rfl
@[simp] theorem setSource_al (c : Fin 4) (x : CounterSource) (s : State) : (setSource c x s).al = s.al := rfl
@[simp] theorem setSource_bs (c : Fin 4) (x : CounterSource) (s : State) : (setSource c x s).bs = s.bs := rfl
@[simp] theorem setSource_bo (c : Fin 4) (x : CounterSource) (s : State) : (setSource c x s).bo = s.bo := rfl
@[simp] theorem setSource_st (c : Fin 4) (x : CounterSource) (s : State) :
    (setSource c x s).st = { s.st with sources := s.st.sources.set c x } := rfl
@[simp] theorem setSource_sq (c : Fin 4) (x : CounterSource) (s : State) : (setSource c x s).sq = s.sq := rfl
@[simp] theorem setSource_asmt (c : Fin 4) (x : CounterSource) (s : State) : (setSource c x s).asmt = s.asmt := rfl
@[simp] theorem setSource_rs (c : Fin 4) (x : CounterSource) (s : State) : (setSource c x s).rs = s.rs := rfl
@[simp] theorem setSource_free (c : Fin 4) (x : CounterSource) (s : State) : (setSource c x s).free = s.free := rfl
@[simp] theorem setSource_pending (c : Fin 4) (x : CounterSource) (s : State) : (setSource c x s).pending = s.pending := rfl

/-! ### putClip -/

@[simp] theorem putClip_count (ch : Fin 8) (b : Bool) (s : State) : (putClip ch b s).count = s.count := rfl
@[simp] theorem putClip_resetLine (ch : Fin 8) (b : Bool) (s : State) : (putClip ch b s).resetLine = s.resetLine := rfl
@[simp] theorem putClip_contactLines (ch : Fin 8) (b : Bool) (s : State) : (putClip ch b s).contactLines = s.contactLines := rfl
@[simp] theorem putClip_syncLine (ch : Fin 8) (b : Bool) (s : State) : (putClip ch b s).syncLine = s.syncLine := rfl
@[simp] theorem putClip_cl (ch : Fin 8) (b : Bool) (s : State) : (putClip ch b s).cl = s.cl := rfl
@[simp] theorem putClip_tb (ch : Fin 8) (b : Bool) (s : State) : (putClip ch b s).tb = s.tb := rfl
@[simp] theorem putClip_ci (ch : Fin 8) (b : Bool) (s : State) : (putClip ch b s).ci = s.ci := rfl
@[simp] theorem putClip_ws (ch : Fin 8) (b : Bool) (s : State) :
    (putClip ch b s).ws = { s.ws with live := s.ws.live.set ch { s.ws.live[ch] with clip := b } } := rfl
@[simp] theorem putClip_al (ch : Fin 8) (b : Bool) (s : State) : (putClip ch b s).al = s.al := rfl
@[simp] theorem putClip_bs (ch : Fin 8) (b : Bool) (s : State) : (putClip ch b s).bs = s.bs := rfl
@[simp] theorem putClip_bo (ch : Fin 8) (b : Bool) (s : State) : (putClip ch b s).bo = s.bo := rfl
@[simp] theorem putClip_st (ch : Fin 8) (b : Bool) (s : State) : (putClip ch b s).st = s.st := rfl
@[simp] theorem putClip_sq (ch : Fin 8) (b : Bool) (s : State) : (putClip ch b s).sq = s.sq := rfl
@[simp] theorem putClip_asmt (ch : Fin 8) (b : Bool) (s : State) : (putClip ch b s).asmt = s.asmt := rfl
@[simp] theorem putClip_rs (ch : Fin 8) (b : Bool) (s : State) : (putClip ch b s).rs = s.rs := rfl
@[simp] theorem putClip_free (ch : Fin 8) (b : Bool) (s : State) : (putClip ch b s).free = s.free := rfl
@[simp] theorem putClip_pending (ch : Fin 8) (b : Bool) (s : State) : (putClip ch b s).pending = s.pending := rfl

/-! ### putReceiver -/

@[simp] theorem putReceiver_count (r : Receiver) (s : State) : (putReceiver r s).count = s.count := rfl
@[simp] theorem putReceiver_resetLine (r : Receiver) (s : State) : (putReceiver r s).resetLine = s.resetLine := rfl
@[simp] theorem putReceiver_contactLines (r : Receiver) (s : State) : (putReceiver r s).contactLines = s.contactLines := rfl
@[simp] theorem putReceiver_syncLine (r : Receiver) (s : State) : (putReceiver r s).syncLine = s.syncLine := rfl
@[simp] theorem putReceiver_cl (r : Receiver) (s : State) :
    (putReceiver r s).cl = { s.cl with receiver := r } := rfl
@[simp] theorem putReceiver_tb (r : Receiver) (s : State) : (putReceiver r s).tb = s.tb := rfl
@[simp] theorem putReceiver_ci (r : Receiver) (s : State) : (putReceiver r s).ci = s.ci := rfl
@[simp] theorem putReceiver_ws (r : Receiver) (s : State) : (putReceiver r s).ws = s.ws := rfl
@[simp] theorem putReceiver_al (r : Receiver) (s : State) : (putReceiver r s).al = s.al := rfl
@[simp] theorem putReceiver_bs (r : Receiver) (s : State) : (putReceiver r s).bs = s.bs := rfl
@[simp] theorem putReceiver_bo (r : Receiver) (s : State) : (putReceiver r s).bo = s.bo := rfl
@[simp] theorem putReceiver_st (r : Receiver) (s : State) : (putReceiver r s).st = s.st := rfl
@[simp] theorem putReceiver_sq (r : Receiver) (s : State) : (putReceiver r s).sq = s.sq := rfl
@[simp] theorem putReceiver_asmt (r : Receiver) (s : State) : (putReceiver r s).asmt = s.asmt := rfl
@[simp] theorem putReceiver_rs (r : Receiver) (s : State) : (putReceiver r s).rs = s.rs := rfl
@[simp] theorem putReceiver_free (r : Receiver) (s : State) : (putReceiver r s).free = s.free := rfl
@[simp] theorem putReceiver_pending (r : Receiver) (s : State) : (putReceiver r s).pending = s.pending := rfl

/-! ### pushAnswer -/

@[simp] theorem pushAnswer_count (a : Answer) (s : State) : (pushAnswer a s).count = s.count := rfl
@[simp] theorem pushAnswer_resetLine (a : Answer) (s : State) : (pushAnswer a s).resetLine = s.resetLine := rfl
@[simp] theorem pushAnswer_contactLines (a : Answer) (s : State) : (pushAnswer a s).contactLines = s.contactLines := rfl
@[simp] theorem pushAnswer_syncLine (a : Answer) (s : State) : (pushAnswer a s).syncLine = s.syncLine := rfl
@[simp] theorem pushAnswer_cl (a : Answer) (s : State) :
    (pushAnswer a s).cl = { s.cl with answers := s.cl.answers ++ [a] } := rfl
@[simp] theorem pushAnswer_tb (a : Answer) (s : State) : (pushAnswer a s).tb = s.tb := rfl
@[simp] theorem pushAnswer_ci (a : Answer) (s : State) : (pushAnswer a s).ci = s.ci := rfl
@[simp] theorem pushAnswer_ws (a : Answer) (s : State) : (pushAnswer a s).ws = s.ws := rfl
@[simp] theorem pushAnswer_al (a : Answer) (s : State) : (pushAnswer a s).al = s.al := rfl
@[simp] theorem pushAnswer_bs (a : Answer) (s : State) : (pushAnswer a s).bs = s.bs := rfl
@[simp] theorem pushAnswer_bo (a : Answer) (s : State) : (pushAnswer a s).bo = s.bo := rfl
@[simp] theorem pushAnswer_st (a : Answer) (s : State) : (pushAnswer a s).st = s.st := rfl
@[simp] theorem pushAnswer_sq (a : Answer) (s : State) : (pushAnswer a s).sq = s.sq := rfl
@[simp] theorem pushAnswer_asmt (a : Answer) (s : State) : (pushAnswer a s).asmt = s.asmt := rfl
@[simp] theorem pushAnswer_rs (a : Answer) (s : State) : (pushAnswer a s).rs = s.rs := rfl
@[simp] theorem pushAnswer_free (a : Answer) (s : State) : (pushAnswer a s).free = s.free := rfl
@[simp] theorem pushAnswer_pending (a : Answer) (s : State) : (pushAnswer a s).pending = s.pending := rfl

/-! ### raiseNotice -/

@[simp] theorem raiseNotice_count (c : NoticeCause) (s : State) : (raiseNotice c s).count = s.count := rfl
@[simp] theorem raiseNotice_resetLine (c : NoticeCause) (s : State) : (raiseNotice c s).resetLine = s.resetLine := rfl
@[simp] theorem raiseNotice_contactLines (c : NoticeCause) (s : State) : (raiseNotice c s).contactLines = s.contactLines := rfl
@[simp] theorem raiseNotice_syncLine (c : NoticeCause) (s : State) : (raiseNotice c s).syncLine = s.syncLine := rfl
@[simp] theorem raiseNotice_cl (c : NoticeCause) (s : State) :
    (raiseNotice c s).cl = { s.cl with notice := some ⟨c, s.snapshot⟩ } := rfl
@[simp] theorem raiseNotice_tb (c : NoticeCause) (s : State) : (raiseNotice c s).tb = s.tb := rfl
@[simp] theorem raiseNotice_ci (c : NoticeCause) (s : State) : (raiseNotice c s).ci = s.ci := rfl
@[simp] theorem raiseNotice_ws (c : NoticeCause) (s : State) : (raiseNotice c s).ws = s.ws := rfl
@[simp] theorem raiseNotice_al (c : NoticeCause) (s : State) : (raiseNotice c s).al = s.al := rfl
@[simp] theorem raiseNotice_bs (c : NoticeCause) (s : State) : (raiseNotice c s).bs = s.bs := rfl
@[simp] theorem raiseNotice_bo (c : NoticeCause) (s : State) : (raiseNotice c s).bo = s.bo := rfl
@[simp] theorem raiseNotice_st (c : NoticeCause) (s : State) : (raiseNotice c s).st = s.st := rfl
@[simp] theorem raiseNotice_sq (c : NoticeCause) (s : State) : (raiseNotice c s).sq = s.sq := rfl
@[simp] theorem raiseNotice_asmt (c : NoticeCause) (s : State) : (raiseNotice c s).asmt = s.asmt := rfl
@[simp] theorem raiseNotice_rs (c : NoticeCause) (s : State) : (raiseNotice c s).rs = s.rs := rfl
@[simp] theorem raiseNotice_free (c : NoticeCause) (s : State) : (raiseNotice c s).free = s.free := rfl
@[simp] theorem raiseNotice_pending (c : NoticeCause) (s : State) : (raiseNotice c s).pending = s.pending := rfl

/-! ### refreshOutputs -/

@[simp] theorem refreshOutputs_count (b : Bool) (s : State) : (refreshOutputs b s).count = s.count := rfl
@[simp] theorem refreshOutputs_resetLine (b : Bool) (s : State) : (refreshOutputs b s).resetLine = s.resetLine := rfl
@[simp] theorem refreshOutputs_contactLines (b : Bool) (s : State) : (refreshOutputs b s).contactLines = s.contactLines := rfl
@[simp] theorem refreshOutputs_syncLine (b : Bool) (s : State) : (refreshOutputs b s).syncLine = s.syncLine := rfl
@[simp] theorem refreshOutputs_cl (b : Bool) (s : State) : (refreshOutputs b s).cl = s.cl := rfl
@[simp] theorem refreshOutputs_tb (b : Bool) (s : State) : (refreshOutputs b s).tb = s.tb := rfl
@[simp] theorem refreshOutputs_ci (b : Bool) (s : State) : (refreshOutputs b s).ci = s.ci := rfl
@[simp] theorem refreshOutputs_ws (b : Bool) (s : State) : (refreshOutputs b s).ws = s.ws := rfl
@[simp] theorem refreshOutputs_al (b : Bool) (s : State) : (refreshOutputs b s).al = s.al := rfl
@[simp] theorem refreshOutputs_bs (b : Bool) (s : State) : (refreshOutputs b s).bs = s.bs := rfl
@[simp] theorem refreshOutputs_st (b : Bool) (s : State) : (refreshOutputs b s).st = s.st := rfl
@[simp] theorem refreshOutputs_sq (b : Bool) (s : State) : (refreshOutputs b s).sq = s.sq := rfl
@[simp] theorem refreshOutputs_asmt (b : Bool) (s : State) : (refreshOutputs b s).asmt = s.asmt := rfl
@[simp] theorem refreshOutputs_rs (b : Bool) (s : State) : (refreshOutputs b s).rs = s.rs := rfl
@[simp] theorem refreshOutputs_free (b : Bool) (s : State) : (refreshOutputs b s).free = s.free := rfl
@[simp] theorem refreshOutputs_pending (b : Bool) (s : State) : (refreshOutputs b s).pending = s.pending := rfl

/-! ### takeGrid -/

@[simp] theorem takeGrid_count (s : State) : (takeGrid s).count = s.count := rfl
@[simp] theorem takeGrid_resetLine (s : State) : (takeGrid s).resetLine = s.resetLine := rfl
@[simp] theorem takeGrid_contactLines (s : State) : (takeGrid s).contactLines = s.contactLines := rfl
@[simp] theorem takeGrid_syncLine (s : State) : (takeGrid s).syncLine = s.syncLine := rfl
@[simp] theorem takeGrid_cl (s : State) : (takeGrid s).cl = s.cl := rfl
@[simp] theorem takeGrid_tb (s : State) : (takeGrid s).tb = s.tb := rfl
@[simp] theorem takeGrid_ci (s : State) : (takeGrid s).ci = s.ci := rfl
@[simp] theorem takeGrid_ws (s : State) :
    (takeGrid s).ws = { s.ws with nextGrid := s.count + 500, lastGrid := some s.count } := rfl
@[simp] theorem takeGrid_al (s : State) : (takeGrid s).al = s.al := rfl
@[simp] theorem takeGrid_bs (s : State) : (takeGrid s).bs = s.bs := rfl
@[simp] theorem takeGrid_bo (s : State) : (takeGrid s).bo = s.bo := rfl
@[simp] theorem takeGrid_st (s : State) : (takeGrid s).st = s.st := rfl
@[simp] theorem takeGrid_sq (s : State) : (takeGrid s).sq = s.sq := rfl
@[simp] theorem takeGrid_asmt (s : State) : (takeGrid s).asmt = s.asmt := rfl
@[simp] theorem takeGrid_rs (s : State) : (takeGrid s).rs = s.rs := rfl
@[simp] theorem takeGrid_free (s : State) : (takeGrid s).free = s.free := rfl
@[simp] theorem takeGrid_pending (s : State) : (takeGrid s).pending = s.pending := rfl

/-! ### clearSynthesis -/

@[simp] theorem clearSynthesis_count (s : State) : (clearSynthesis s).count = s.count := rfl
@[simp] theorem clearSynthesis_resetLine (s : State) : (clearSynthesis s).resetLine = s.resetLine := rfl
@[simp] theorem clearSynthesis_contactLines (s : State) : (clearSynthesis s).contactLines = s.contactLines := rfl
@[simp] theorem clearSynthesis_syncLine (s : State) : (clearSynthesis s).syncLine = s.syncLine := rfl
@[simp] theorem clearSynthesis_cl (s : State) : (clearSynthesis s).cl = s.cl := rfl
@[simp] theorem clearSynthesis_tb (s : State) : (clearSynthesis s).tb = s.tb := rfl
@[simp] theorem clearSynthesis_ci (s : State) : (clearSynthesis s).ci = s.ci := rfl
@[simp] theorem clearSynthesis_ws (s : State) :
    (clearSynthesis s).ws = { s.ws with live := .replicate 8 .cleared, decay := 0, r := 0, dRef := 0 } := rfl
@[simp] theorem clearSynthesis_al (s : State) : (clearSynthesis s).al = s.al := rfl
@[simp] theorem clearSynthesis_bs (s : State) : (clearSynthesis s).bs = s.bs := rfl
@[simp] theorem clearSynthesis_bo (s : State) : (clearSynthesis s).bo = s.bo := rfl
@[simp] theorem clearSynthesis_st (s : State) : (clearSynthesis s).st = s.st := rfl
@[simp] theorem clearSynthesis_sq (s : State) : (clearSynthesis s).sq = s.sq := rfl
@[simp] theorem clearSynthesis_asmt (s : State) : (clearSynthesis s).asmt = s.asmt := rfl
@[simp] theorem clearSynthesis_rs (s : State) : (clearSynthesis s).rs = s.rs := rfl
@[simp] theorem clearSynthesis_free (s : State) : (clearSynthesis s).free = s.free := rfl
@[simp] theorem clearSynthesis_pending (s : State) : (clearSynthesis s).pending = s.pending := rfl

/-! ### applyInitial -/

@[simp] theorem applyInitial_count (s : State) : (applyInitial s).count = s.count := rfl
@[simp] theorem applyInitial_resetLine (s : State) : (applyInitial s).resetLine = s.resetLine := rfl
@[simp] theorem applyInitial_contactLines (s : State) : (applyInitial s).contactLines = s.contactLines := rfl
@[simp] theorem applyInitial_syncLine (s : State) : (applyInitial s).syncLine = s.syncLine := rfl
@[simp] theorem applyInitial_cl (s : State) : (applyInitial s).cl = s.cl := rfl
@[simp] theorem applyInitial_tb (s : State) : (applyInitial s).tb = s.tb := rfl
@[simp] theorem applyInitial_ci (s : State) : (applyInitial s).ci = s.ci := rfl
@[simp] theorem applyInitial_ws (s : State) : (applyInitial s).ws = s.ws := rfl
@[simp] theorem applyInitial_al (s : State) : (applyInitial s).al = s.al := rfl
@[simp] theorem applyInitial_bo (s : State) : (applyInitial s).bo = s.bo := rfl
@[simp] theorem applyInitial_st (s : State) : (applyInitial s).st = s.st := rfl
@[simp] theorem applyInitial_sq (s : State) : (applyInitial s).sq = s.sq := rfl
@[simp] theorem applyInitial_asmt (s : State) : (applyInitial s).asmt = s.asmt := rfl
@[simp] theorem applyInitial_rs (s : State) : (applyInitial s).rs = s.rs := rfl
@[simp] theorem applyInitial_free (s : State) : (applyInitial s).free = s.free := rfl
@[simp] theorem applyInitial_pending (s : State) : (applyInitial s).pending = s.pending := rfl

/-! ### startBreaker -/

@[simp] theorem startBreaker_count (s : State) : (startBreaker s).count = s.count := rfl
@[simp] theorem startBreaker_resetLine (s : State) : (startBreaker s).resetLine = s.resetLine := rfl
@[simp] theorem startBreaker_contactLines (s : State) : (startBreaker s).contactLines = s.contactLines := rfl
@[simp] theorem startBreaker_syncLine (s : State) : (startBreaker s).syncLine = s.syncLine := rfl
@[simp] theorem startBreaker_cl (s : State) : (startBreaker s).cl = s.cl := rfl
@[simp] theorem startBreaker_tb (s : State) : (startBreaker s).tb = s.tb := rfl
@[simp] theorem startBreaker_ci (s : State) : (startBreaker s).ci = s.ci := rfl
@[simp] theorem startBreaker_ws (s : State) : (startBreaker s).ws = s.ws := rfl
@[simp] theorem startBreaker_al (s : State) : (startBreaker s).al = s.al := rfl
@[simp] theorem startBreaker_bo (s : State) : (startBreaker s).bo = s.bo := rfl
@[simp] theorem startBreaker_st (s : State) : (startBreaker s).st = s.st := rfl
@[simp] theorem startBreaker_sq (s : State) : (startBreaker s).sq = s.sq := rfl
@[simp] theorem startBreaker_asmt (s : State) : (startBreaker s).asmt = s.asmt := rfl
@[simp] theorem startBreaker_rs (s : State) : (startBreaker s).rs = s.rs := rfl
@[simp] theorem startBreaker_free (s : State) : (startBreaker s).free = s.free := rfl
@[simp] theorem startBreaker_pending (s : State) : (startBreaker s).pending = s.pending := rfl

/-! ### toIdle -/

@[simp] theorem toIdle_count (s : State) : (toIdle s).count = s.count := rfl
@[simp] theorem toIdle_resetLine (s : State) : (toIdle s).resetLine = s.resetLine := rfl
@[simp] theorem toIdle_contactLines (s : State) : (toIdle s).contactLines = s.contactLines := rfl
@[simp] theorem toIdle_syncLine (s : State) : (toIdle s).syncLine = s.syncLine := rfl
@[simp] theorem toIdle_cl (s : State) : (toIdle s).cl = s.cl := rfl
@[simp] theorem toIdle_tb (s : State) : (toIdle s).tb = s.tb := rfl
@[simp] theorem toIdle_ci (s : State) : (toIdle s).ci = s.ci := rfl
@[simp] theorem toIdle_ws (s : State) : (toIdle s).ws = s.ws := rfl
@[simp] theorem toIdle_al (s : State) : (toIdle s).al = s.al := rfl
@[simp] theorem toIdle_bs (s : State) : (toIdle s).bs = s.bs := rfl
@[simp] theorem toIdle_bo (s : State) : (toIdle s).bo = s.bo := rfl
@[simp] theorem toIdle_st (s : State) : (toIdle s).st = s.st := rfl
@[simp] theorem toIdle_sq (s : State) :
    (toIdle s).sq = { s.sq with state := .idle, settings := none, gapEnd := none } := rfl
@[simp] theorem toIdle_asmt (s : State) : (toIdle s).asmt = s.asmt := rfl
@[simp] theorem toIdle_rs (s : State) : (toIdle s).rs = s.rs := rfl
@[simp] theorem toIdle_free (s : State) : (toIdle s).free = s.free := rfl
@[simp] theorem toIdle_pending (s : State) : (toIdle s).pending = s.pending := rfl

/-! ### decrementBy -/

@[simp] theorem decrementBy_count (x : CounterSource) (s : State) : (decrementBy x s).count = s.count := rfl
@[simp] theorem decrementBy_resetLine (x : CounterSource) (s : State) : (decrementBy x s).resetLine = s.resetLine := rfl
@[simp] theorem decrementBy_contactLines (x : CounterSource) (s : State) : (decrementBy x s).contactLines = s.contactLines := rfl
@[simp] theorem decrementBy_syncLine (x : CounterSource) (s : State) : (decrementBy x s).syncLine = s.syncLine := rfl
@[simp] theorem decrementBy_cl (x : CounterSource) (s : State) : (decrementBy x s).cl = s.cl := rfl
@[simp] theorem decrementBy_tb (x : CounterSource) (s : State) : (decrementBy x s).tb = s.tb := rfl
@[simp] theorem decrementBy_ci (x : CounterSource) (s : State) : (decrementBy x s).ci = s.ci := rfl
@[simp] theorem decrementBy_ws (x : CounterSource) (s : State) : (decrementBy x s).ws = s.ws := rfl
@[simp] theorem decrementBy_al (x : CounterSource) (s : State) : (decrementBy x s).al = s.al := rfl
@[simp] theorem decrementBy_bs (x : CounterSource) (s : State) : (decrementBy x s).bs = s.bs := rfl
@[simp] theorem decrementBy_bo (x : CounterSource) (s : State) : (decrementBy x s).bo = s.bo := rfl
@[simp] theorem decrementBy_st (x : CounterSource) (s : State) : (decrementBy x s).st = s.st := rfl
@[simp] theorem decrementBy_asmt (x : CounterSource) (s : State) : (decrementBy x s).asmt = s.asmt := rfl
@[simp] theorem decrementBy_rs (x : CounterSource) (s : State) : (decrementBy x s).rs = s.rs := rfl
@[simp] theorem decrementBy_free (x : CounterSource) (s : State) : (decrementBy x s).free = s.free := rfl
@[simp] theorem decrementBy_pending (x : CounterSource) (s : State) : (decrementBy x s).pending = s.pending := rfl

/-! ### loadCounters -/

@[simp] theorem loadCounters_count (e : Entry) (s : State) : (loadCounters e s).count = s.count := rfl
@[simp] theorem loadCounters_resetLine (e : Entry) (s : State) : (loadCounters e s).resetLine = s.resetLine := rfl
@[simp] theorem loadCounters_contactLines (e : Entry) (s : State) : (loadCounters e s).contactLines = s.contactLines := rfl
@[simp] theorem loadCounters_syncLine (e : Entry) (s : State) : (loadCounters e s).syncLine = s.syncLine := rfl
@[simp] theorem loadCounters_cl (e : Entry) (s : State) : (loadCounters e s).cl = s.cl := rfl
@[simp] theorem loadCounters_tb (e : Entry) (s : State) : (loadCounters e s).tb = s.tb := rfl
@[simp] theorem loadCounters_ci (e : Entry) (s : State) : (loadCounters e s).ci = s.ci := rfl
@[simp] theorem loadCounters_ws (e : Entry) (s : State) : (loadCounters e s).ws = s.ws := rfl
@[simp] theorem loadCounters_al (e : Entry) (s : State) : (loadCounters e s).al = s.al := rfl
@[simp] theorem loadCounters_bs (e : Entry) (s : State) : (loadCounters e s).bs = s.bs := rfl
@[simp] theorem loadCounters_bo (e : Entry) (s : State) : (loadCounters e s).bo = s.bo := rfl
@[simp] theorem loadCounters_st (e : Entry) (s : State) : (loadCounters e s).st = s.st := rfl
@[simp] theorem loadCounters_asmt (e : Entry) (s : State) : (loadCounters e s).asmt = s.asmt := rfl
@[simp] theorem loadCounters_rs (e : Entry) (s : State) : (loadCounters e s).rs = s.rs := rfl
@[simp] theorem loadCounters_free (e : Entry) (s : State) : (loadCounters e s).free = s.free := rfl
@[simp] theorem loadCounters_pending (e : Entry) (s : State) : (loadCounters e s).pending = s.pending := rfl

/-! ### countVisit -/

@[simp] theorem countVisit_count (n : Fin 24) (s : State) : (countVisit n s).count = s.count := rfl
@[simp] theorem countVisit_resetLine (n : Fin 24) (s : State) : (countVisit n s).resetLine = s.resetLine := rfl
@[simp] theorem countVisit_contactLines (n : Fin 24) (s : State) : (countVisit n s).contactLines = s.contactLines := rfl
@[simp] theorem countVisit_syncLine (n : Fin 24) (s : State) : (countVisit n s).syncLine = s.syncLine := rfl
@[simp] theorem countVisit_cl (n : Fin 24) (s : State) : (countVisit n s).cl = s.cl := rfl
@[simp] theorem countVisit_tb (n : Fin 24) (s : State) : (countVisit n s).tb = s.tb := rfl
@[simp] theorem countVisit_ci (n : Fin 24) (s : State) : (countVisit n s).ci = s.ci := rfl
@[simp] theorem countVisit_ws (n : Fin 24) (s : State) : (countVisit n s).ws = s.ws := rfl
@[simp] theorem countVisit_al (n : Fin 24) (s : State) : (countVisit n s).al = s.al := rfl
@[simp] theorem countVisit_bs (n : Fin 24) (s : State) : (countVisit n s).bs = s.bs := rfl
@[simp] theorem countVisit_bo (n : Fin 24) (s : State) : (countVisit n s).bo = s.bo := rfl
@[simp] theorem countVisit_st (n : Fin 24) (s : State) : (countVisit n s).st = s.st := rfl
@[simp] theorem countVisit_asmt (n : Fin 24) (s : State) : (countVisit n s).asmt = s.asmt := rfl
@[simp] theorem countVisit_rs (n : Fin 24) (s : State) : (countVisit n s).rs = s.rs := rfl
@[simp] theorem countVisit_free (n : Fin 24) (s : State) : (countVisit n s).free = s.free := rfl
@[simp] theorem countVisit_pending (n : Fin 24) (s : State) : (countVisit n s).pending = s.pending := rfl

/-! ### setGuard -/

@[simp] theorem setGuard_count (e : Entry) (t : Nat) (s : State) : (setGuard e t s).count = s.count := rfl
@[simp] theorem setGuard_resetLine (e : Entry) (t : Nat) (s : State) : (setGuard e t s).resetLine = s.resetLine := rfl
@[simp] theorem setGuard_contactLines (e : Entry) (t : Nat) (s : State) : (setGuard e t s).contactLines = s.contactLines := rfl
@[simp] theorem setGuard_syncLine (e : Entry) (t : Nat) (s : State) : (setGuard e t s).syncLine = s.syncLine := rfl
@[simp] theorem setGuard_cl (e : Entry) (t : Nat) (s : State) : (setGuard e t s).cl = s.cl := rfl
@[simp] theorem setGuard_tb (e : Entry) (t : Nat) (s : State) : (setGuard e t s).tb = s.tb := rfl
@[simp] theorem setGuard_ci (e : Entry) (t : Nat) (s : State) : (setGuard e t s).ci = s.ci := rfl
@[simp] theorem setGuard_ws (e : Entry) (t : Nat) (s : State) : (setGuard e t s).ws = s.ws := rfl
@[simp] theorem setGuard_al (e : Entry) (t : Nat) (s : State) : (setGuard e t s).al = s.al := rfl
@[simp] theorem setGuard_bs (e : Entry) (t : Nat) (s : State) : (setGuard e t s).bs = s.bs := rfl
@[simp] theorem setGuard_bo (e : Entry) (t : Nat) (s : State) : (setGuard e t s).bo = s.bo := rfl
@[simp] theorem setGuard_st (e : Entry) (t : Nat) (s : State) : (setGuard e t s).st = s.st := rfl
@[simp] theorem setGuard_asmt (e : Entry) (t : Nat) (s : State) : (setGuard e t s).asmt = s.asmt := rfl
@[simp] theorem setGuard_rs (e : Entry) (t : Nat) (s : State) : (setGuard e t s).rs = s.rs := rfl
@[simp] theorem setGuard_free (e : Entry) (t : Nat) (s : State) : (setGuard e t s).free = s.free := rfl
@[simp] theorem setGuard_pending (e : Entry) (t : Nat) (s : State) : (setGuard e t s).pending = s.pending := rfl

/-! ### latchExit -/

@[simp] theorem latchExit_count (g : Guard) (i t : Nat) (s : State) : (latchExit g i t s).count = s.count := rfl
@[simp] theorem latchExit_resetLine (g : Guard) (i t : Nat) (s : State) : (latchExit g i t s).resetLine = s.resetLine := rfl
@[simp] theorem latchExit_contactLines (g : Guard) (i t : Nat) (s : State) : (latchExit g i t s).contactLines = s.contactLines := rfl
@[simp] theorem latchExit_syncLine (g : Guard) (i t : Nat) (s : State) : (latchExit g i t s).syncLine = s.syncLine := rfl
@[simp] theorem latchExit_cl (g : Guard) (i t : Nat) (s : State) : (latchExit g i t s).cl = s.cl := rfl
@[simp] theorem latchExit_tb (g : Guard) (i t : Nat) (s : State) : (latchExit g i t s).tb = s.tb := rfl
@[simp] theorem latchExit_ci (g : Guard) (i t : Nat) (s : State) : (latchExit g i t s).ci = s.ci := rfl
@[simp] theorem latchExit_ws (g : Guard) (i t : Nat) (s : State) : (latchExit g i t s).ws = s.ws := rfl
@[simp] theorem latchExit_al (g : Guard) (i t : Nat) (s : State) : (latchExit g i t s).al = s.al := rfl
@[simp] theorem latchExit_bs (g : Guard) (i t : Nat) (s : State) : (latchExit g i t s).bs = s.bs := rfl
@[simp] theorem latchExit_bo (g : Guard) (i t : Nat) (s : State) : (latchExit g i t s).bo = s.bo := rfl
@[simp] theorem latchExit_st (g : Guard) (i t : Nat) (s : State) : (latchExit g i t s).st = s.st := rfl
@[simp] theorem latchExit_asmt (g : Guard) (i t : Nat) (s : State) : (latchExit g i t s).asmt = s.asmt := rfl
@[simp] theorem latchExit_rs (g : Guard) (i t : Nat) (s : State) : (latchExit g i t s).rs = s.rs := rfl
@[simp] theorem latchExit_free (g : Guard) (i t : Nat) (s : State) : (latchExit g i t s).free = s.free := rfl
@[simp] theorem latchExit_pending (g : Guard) (i t : Nat) (s : State) : (latchExit g i t s).pending = s.pending := rfl

/-! ### loadEntry -/

@[simp] theorem loadEntry_count (e : Entry) (s : State) : (loadEntry e s).count = s.count := rfl
@[simp] theorem loadEntry_resetLine (e : Entry) (s : State) : (loadEntry e s).resetLine = s.resetLine := rfl
@[simp] theorem loadEntry_contactLines (e : Entry) (s : State) : (loadEntry e s).contactLines = s.contactLines := rfl
@[simp] theorem loadEntry_syncLine (e : Entry) (s : State) : (loadEntry e s).syncLine = s.syncLine := rfl
@[simp] theorem loadEntry_cl (e : Entry) (s : State) : (loadEntry e s).cl = s.cl := rfl
@[simp] theorem loadEntry_tb (e : Entry) (s : State) : (loadEntry e s).tb = s.tb := rfl
@[simp] theorem loadEntry_ci (e : Entry) (s : State) : (loadEntry e s).ci = s.ci := rfl
@[simp] theorem loadEntry_al (e : Entry) (s : State) : (loadEntry e s).al = s.al := rfl
@[simp] theorem loadEntry_bs (e : Entry) (s : State) : (loadEntry e s).bs = s.bs := rfl
@[simp] theorem loadEntry_bo (e : Entry) (s : State) : (loadEntry e s).bo = s.bo := rfl
@[simp] theorem loadEntry_st (e : Entry) (s : State) : (loadEntry e s).st = s.st := rfl
@[simp] theorem loadEntry_sq (e : Entry) (s : State) : (loadEntry e s).sq = s.sq := rfl
@[simp] theorem loadEntry_asmt (e : Entry) (s : State) : (loadEntry e s).asmt = s.asmt := rfl
@[simp] theorem loadEntry_rs (e : Entry) (s : State) : (loadEntry e s).rs = s.rs := rfl
@[simp] theorem loadEntry_free (e : Entry) (s : State) : (loadEntry e s).free = s.free := rfl
@[simp] theorem loadEntry_pending (e : Entry) (s : State) : (loadEntry e s).pending = s.pending := rfl

/-! ### dropOpenDc -/

@[simp] theorem dropOpenDc_count (s : State) : (dropOpenDc s).count = s.count := rfl
@[simp] theorem dropOpenDc_resetLine (s : State) : (dropOpenDc s).resetLine = s.resetLine := rfl
@[simp] theorem dropOpenDc_contactLines (s : State) : (dropOpenDc s).contactLines = s.contactLines := rfl
@[simp] theorem dropOpenDc_syncLine (s : State) : (dropOpenDc s).syncLine = s.syncLine := rfl
@[simp] theorem dropOpenDc_cl (s : State) : (dropOpenDc s).cl = s.cl := rfl
@[simp] theorem dropOpenDc_tb (s : State) : (dropOpenDc s).tb = s.tb := rfl
@[simp] theorem dropOpenDc_ci (s : State) : (dropOpenDc s).ci = s.ci := rfl
@[simp] theorem dropOpenDc_al (s : State) : (dropOpenDc s).al = s.al := rfl
@[simp] theorem dropOpenDc_bs (s : State) : (dropOpenDc s).bs = s.bs := rfl
@[simp] theorem dropOpenDc_bo (s : State) : (dropOpenDc s).bo = s.bo := rfl
@[simp] theorem dropOpenDc_st (s : State) : (dropOpenDc s).st = s.st := rfl
@[simp] theorem dropOpenDc_sq (s : State) : (dropOpenDc s).sq = s.sq := rfl
@[simp] theorem dropOpenDc_asmt (s : State) : (dropOpenDc s).asmt = s.asmt := rfl
@[simp] theorem dropOpenDc_rs (s : State) : (dropOpenDc s).rs = s.rs := rfl
@[simp] theorem dropOpenDc_free (s : State) : (dropOpenDc s).free = s.free := rfl
@[simp] theorem dropOpenDc_pending (s : State) : (dropOpenDc s).pending = s.pending := rfl

/-! ### advanceAll -/

@[simp] theorem advanceAll_count (s : State) : (advanceAll s).count = s.count := rfl
@[simp] theorem advanceAll_resetLine (s : State) : (advanceAll s).resetLine = s.resetLine := rfl
@[simp] theorem advanceAll_contactLines (s : State) : (advanceAll s).contactLines = s.contactLines := rfl
@[simp] theorem advanceAll_syncLine (s : State) : (advanceAll s).syncLine = s.syncLine := rfl
@[simp] theorem advanceAll_cl (s : State) : (advanceAll s).cl = s.cl := rfl
@[simp] theorem advanceAll_tb (s : State) : (advanceAll s).tb = s.tb := rfl
@[simp] theorem advanceAll_ci (s : State) : (advanceAll s).ci = s.ci := rfl
@[simp] theorem advanceAll_al (s : State) : (advanceAll s).al = s.al := rfl
@[simp] theorem advanceAll_bs (s : State) : (advanceAll s).bs = s.bs := rfl
@[simp] theorem advanceAll_bo (s : State) : (advanceAll s).bo = s.bo := rfl
@[simp] theorem advanceAll_st (s : State) : (advanceAll s).st = s.st := rfl
@[simp] theorem advanceAll_sq (s : State) : (advanceAll s).sq = s.sq := rfl
@[simp] theorem advanceAll_asmt (s : State) : (advanceAll s).asmt = s.asmt := rfl
@[simp] theorem advanceAll_rs (s : State) : (advanceAll s).rs = s.rs := rfl
@[simp] theorem advanceAll_free (s : State) : (advanceAll s).free = s.free := rfl
@[simp] theorem advanceAll_pending (s : State) : (advanceAll s).pending = s.pending := rfl

/-! ### openVisit -/

@[simp] theorem openVisit_count (n : Fin 24) (c t : Nat) (l : List Item) (s : State) : (openVisit n c t l s).count = s.count := rfl
@[simp] theorem openVisit_resetLine (n : Fin 24) (c t : Nat) (l : List Item) (s : State) : (openVisit n c t l s).resetLine = s.resetLine := rfl
@[simp] theorem openVisit_contactLines (n : Fin 24) (c t : Nat) (l : List Item) (s : State) : (openVisit n c t l s).contactLines = s.contactLines := rfl
@[simp] theorem openVisit_syncLine (n : Fin 24) (c t : Nat) (l : List Item) (s : State) : (openVisit n c t l s).syncLine = s.syncLine := rfl
@[simp] theorem openVisit_cl (n : Fin 24) (c t : Nat) (l : List Item) (s : State) : (openVisit n c t l s).cl = s.cl := rfl
@[simp] theorem openVisit_tb (n : Fin 24) (c t : Nat) (l : List Item) (s : State) : (openVisit n c t l s).tb = s.tb := rfl
@[simp] theorem openVisit_ci (n : Fin 24) (c t : Nat) (l : List Item) (s : State) : (openVisit n c t l s).ci = s.ci := rfl
@[simp] theorem openVisit_ws (n : Fin 24) (c t : Nat) (l : List Item) (s : State) : (openVisit n c t l s).ws = s.ws := rfl
@[simp] theorem openVisit_al (n : Fin 24) (c t : Nat) (l : List Item) (s : State) : (openVisit n c t l s).al = s.al := rfl
@[simp] theorem openVisit_bs (n : Fin 24) (c t : Nat) (l : List Item) (s : State) : (openVisit n c t l s).bs = s.bs := rfl
@[simp] theorem openVisit_bo (n : Fin 24) (c t : Nat) (l : List Item) (s : State) : (openVisit n c t l s).bo = s.bo := rfl
@[simp] theorem openVisit_st (n : Fin 24) (c t : Nat) (l : List Item) (s : State) : (openVisit n c t l s).st = s.st := rfl
@[simp] theorem openVisit_sq (n : Fin 24) (c t : Nat) (l : List Item) (s : State) : (openVisit n c t l s).sq = s.sq := rfl
@[simp] theorem openVisit_rs (n : Fin 24) (c t : Nat) (l : List Item) (s : State) : (openVisit n c t l s).rs = s.rs := rfl
@[simp] theorem openVisit_free (n : Fin 24) (c t : Nat) (l : List Item) (s : State) : (openVisit n c t l s).free = s.free := rfl
@[simp] theorem openVisit_pending (n : Fin 24) (c t : Nat) (l : List Item) (s : State) : (openVisit n c t l s).pending = s.pending := rfl

/-! ### loadPattern -/

@[simp] theorem loadPattern_count (p : BitVec 8) (s : State) : (loadPattern p s).count = s.count := rfl
@[simp] theorem loadPattern_resetLine (p : BitVec 8) (s : State) : (loadPattern p s).resetLine = s.resetLine := rfl
@[simp] theorem loadPattern_contactLines (p : BitVec 8) (s : State) : (loadPattern p s).contactLines = s.contactLines := rfl
@[simp] theorem loadPattern_syncLine (p : BitVec 8) (s : State) : (loadPattern p s).syncLine = s.syncLine := rfl
@[simp] theorem loadPattern_cl (p : BitVec 8) (s : State) : (loadPattern p s).cl = s.cl := rfl
@[simp] theorem loadPattern_tb (p : BitVec 8) (s : State) : (loadPattern p s).tb = s.tb := rfl
@[simp] theorem loadPattern_ci (p : BitVec 8) (s : State) : (loadPattern p s).ci = s.ci := rfl
@[simp] theorem loadPattern_ws (p : BitVec 8) (s : State) : (loadPattern p s).ws = s.ws := rfl
@[simp] theorem loadPattern_al (p : BitVec 8) (s : State) : (loadPattern p s).al = s.al := rfl
@[simp] theorem loadPattern_bs (p : BitVec 8) (s : State) : (loadPattern p s).bs = s.bs := rfl
@[simp] theorem loadPattern_st (p : BitVec 8) (s : State) : (loadPattern p s).st = s.st := rfl
@[simp] theorem loadPattern_sq (p : BitVec 8) (s : State) : (loadPattern p s).sq = s.sq := rfl
@[simp] theorem loadPattern_asmt (p : BitVec 8) (s : State) : (loadPattern p s).asmt = s.asmt := rfl
@[simp] theorem loadPattern_rs (p : BitVec 8) (s : State) : (loadPattern p s).rs = s.rs := rfl
@[simp] theorem loadPattern_free (p : BitVec 8) (s : State) : (loadPattern p s).free = s.free := rfl
@[simp] theorem loadPattern_pending (p : BitVec 8) (s : State) : (loadPattern p s).pending = s.pending := rfl

/-! ### latchRun -/

@[simp] theorem latchRun_count (t : Nat) (s : State) : (latchRun t s).count = s.count := rfl
@[simp] theorem latchRun_resetLine (t : Nat) (s : State) : (latchRun t s).resetLine = s.resetLine := rfl
@[simp] theorem latchRun_contactLines (t : Nat) (s : State) : (latchRun t s).contactLines = s.contactLines := rfl
@[simp] theorem latchRun_syncLine (t : Nat) (s : State) : (latchRun t s).syncLine = s.syncLine := rfl
@[simp] theorem latchRun_cl (t : Nat) (s : State) : (latchRun t s).cl = s.cl := rfl
@[simp] theorem latchRun_tb (t : Nat) (s : State) :
    (latchRun t s).tb = s.tb.latchAt t s.sq.resultHeld := rfl
@[simp] theorem latchRun_ci (t : Nat) (s : State) : (latchRun t s).ci = s.ci := rfl
@[simp] theorem latchRun_ws (t : Nat) (s : State) : (latchRun t s).ws = s.ws := rfl
@[simp] theorem latchRun_al (t : Nat) (s : State) : (latchRun t s).al = s.al := rfl
@[simp] theorem latchRun_bs (t : Nat) (s : State) : (latchRun t s).bs = s.bs := rfl
@[simp] theorem latchRun_bo (t : Nat) (s : State) : (latchRun t s).bo = s.bo := rfl
@[simp] theorem latchRun_st (t : Nat) (s : State) : (latchRun t s).st = s.st := rfl
@[simp] theorem latchRun_sq (t : Nat) (s : State) : (latchRun t s).sq = s.sq := rfl
@[simp] theorem latchRun_asmt (t : Nat) (s : State) : (latchRun t s).asmt = s.asmt := rfl
@[simp] theorem latchRun_rs (t : Nat) (s : State) : (latchRun t s).rs = s.rs := rfl
@[simp] theorem latchRun_free (t : Nat) (s : State) : (latchRun t s).free = s.free := rfl
@[simp] theorem latchRun_pending (t : Nat) (s : State) : (latchRun t s).pending = s.pending := rfl

/-! ### holdResult -/

@[simp] theorem holdResult_count (s : State) : (holdResult s).count = s.count := rfl
@[simp] theorem holdResult_resetLine (s : State) : (holdResult s).resetLine = s.resetLine := rfl
@[simp] theorem holdResult_contactLines (s : State) : (holdResult s).contactLines = s.contactLines := rfl
@[simp] theorem holdResult_syncLine (s : State) : (holdResult s).syncLine = s.syncLine := rfl
@[simp] theorem holdResult_cl (s : State) : (holdResult s).cl = s.cl := rfl
@[simp] theorem holdResult_tb (s : State) : (holdResult s).tb = s.tb := rfl
@[simp] theorem holdResult_ci (s : State) : (holdResult s).ci = s.ci := rfl
@[simp] theorem holdResult_ws (s : State) : (holdResult s).ws = s.ws := rfl
@[simp] theorem holdResult_al (s : State) : (holdResult s).al = s.al := rfl
@[simp] theorem holdResult_bs (s : State) : (holdResult s).bs = s.bs := rfl
@[simp] theorem holdResult_bo (s : State) : (holdResult s).bo = s.bo := rfl
@[simp] theorem holdResult_st (s : State) : (holdResult s).st = s.st := rfl
@[simp] theorem holdResult_asmt (s : State) : (holdResult s).asmt = s.asmt := rfl
@[simp] theorem holdResult_rs (s : State) : (holdResult s).rs = s.rs := rfl
@[simp] theorem holdResult_free (s : State) : (holdResult s).free = s.free := rfl
@[simp] theorem holdResult_pending (s : State) : (holdResult s).pending = s.pending := rfl

end Sys2Proof.Machine
end

