-- ==== Sys2Proof/Laws/Store.lean ====
section
/-! SUPPORT. The offer of a record: what it does to the store (R188 to R193, R200) and what it leaves. -/

namespace Sys2Proof.Machine

/-- The kinds of record that open or close the run window. -/
def RecordBody.isBoundary : RecordBody → Bool
  | .runStart .. => true
  | .runEnd .. => true
  | _ => false

theorem wrapNumbers_window_isSome (rs : ReportStore) : (wrapNumbers rs).window.isSome = rs.window.isSome := by
  unfold wrapNumbers; split <;> simp

theorem wrapNumbers_ordered {rs : ReportStore} (h : rs.ordered) : (wrapNumbers rs).ordered := by
  unfold wrapNumbers
  split
  · exact h
  · simp [ReportStore.ordered]

theorem wrapNumbers_length_le (rs : ReportStore) : (wrapNumbers rs).records.length ≤ rs.records.length := by
  unfold wrapNumbers; split <;> simp

/-- A record appended with the next number keeps the order. -/
theorem ordered_append {rs : ReportStore} {w : Option RunWindow} {run time : Nat} {body : RecordBody}
    (h : rs.ordered) (hl : rs.records.length ≤ 639) (hw : w.isSome → rs.records.length ≤ 638) :
    ReportStore.ordered
      { rs with records := rs.records ++ [⟨rs.nextSeq, run, time, body⟩], nextSeq := rs.nextSeq + 1, window := w } := by
  obtain ⟨_, _, h3, h4⟩ := h
  refine ⟨by simp; omega, fun hs => by have := hw hs; simp; omega, ?_, ?_⟩
  · simp only [List.map_append, List.map_cons, List.map_nil, List.pairwise_append]
    refine ⟨h3, by simp, ?_⟩
    intro a ha b hb
    simp only [List.mem_map] at ha
    obtain ⟨r, hr, rfl⟩ := ha
    simp at hb
    subst hb
    exact h4 r hr
  · intro r hr
    simp only [List.mem_append, List.mem_singleton] at hr
    rcases hr with hr | rfl
    · exact Nat.lt_succ_of_lt (h4 r hr)
    · exact Nat.lt_succ_self _

theorem ordered_skip {rs : ReportStore} {w : Option RunWindow} (h : rs.ordered)
    (hw : w.isSome → rs.records.length ≤ 639) :
    ReportStore.ordered { rs with nextSeq := rs.nextSeq + 1, window := w } := by
  obtain ⟨h1, _, h3, h4⟩ := h
  exact ⟨h1, hw, h3, fun r hr => Nat.lt_succ_of_lt (h4 r hr)⟩

theorem countLost_isSome (w : Option RunWindow) : (countLost w).isSome = w.isSome := by
  cases w <;> rfl

theorem ordinary_windows {body : RecordBody} (run : Nat) (w : Option RunWindow) (h : body.isBoundary = false) :
    openWindow body run w = w ∧ closeWindow body w = w := by
  cases body <;> simp_all [RecordBody.isBoundary, openWindow, closeWindow]

theorem ordinary_admits {body : RecordBody} {o : Bool} {fill : Nat} (h : body.isBoundary = false)
    (ha : admits body o fill = true) : fill ≤ 639 ∧ (o = true → fill ≤ 638) := by
  cases body <;> cases o <;> simp_all [RecordBody.isBoundary, admits] <;> omega

/-- An offer that opens or closes no window keeps the window present or absent. -/
theorem offer_window (run time : Nat) (body : RecordBody) (rs : ReportStore) (h : body.isBoundary = false) :
    (rs.offer run time body).window.isSome = rs.window.isSome := by
  unfold ReportStore.offer
  simp only [(ordinary_windows run _ h).1, (ordinary_windows run _ h).2]
  by_cases ha : admits body (wrapNumbers rs).window.isSome (wrapNumbers rs).records.length = true
  · rw [if_pos ha]; exact wrapNumbers_window_isSome rs
  · rw [if_neg ha]; simp [countLost_isSome, wrapNumbers_window_isSome]

/-- An offer that opens or closes no window keeps the store in order. -/
theorem offer_ordered {run time : Nat} {body : RecordBody} {rs : ReportStore} (h : body.isBoundary = false)
    (ho : rs.ordered) : (rs.offer run time body).ordered := by
  have hw := wrapNumbers_ordered ho
  unfold ReportStore.offer
  simp only [(ordinary_windows run _ h).1, (ordinary_windows run _ h).2]
  by_cases ha : admits body (wrapNumbers rs).window.isSome (wrapNumbers rs).records.length = true
  · rw [if_pos ha]
    exact ordered_append hw (ordinary_admits h ha).1 (ordinary_admits h ha).2
  · rw [if_neg ha]
    exact ordered_skip hw (fun hs => hw.2.1 (by simpa [countLost_isSome] using hs))

/-- R191, R192: a RUN_START offered with at most 638 records opens the window. -/
theorem offer_runStart {run time : Nat} {body : RecordBody} {rs : ReportStore} (ho : rs.ordered)
    (hl : rs.records.length ≤ 638) (hb : ∃ m t f q c a b, body = .runStart m t f q c a b) :
    (rs.offer run time body).ordered ∧ (rs.offer run time body).window.isSome = true := by
  obtain ⟨m, t, f, q, c, a, b, rfl⟩ := hb
  have hw := wrapNumbers_ordered ho
  have hle := wrapNumbers_length_le rs
  unfold ReportStore.offer
  have : (wrapNumbers rs).records.length ≤ 638 := by omega
  have ha : admits (.runStart m t f q c a b)
      (openWindow (.runStart m t f q c a b) run (wrapNumbers rs).window).isSome (wrapNumbers rs).records.length =
      true := by simp [admits, openWindow, this]
  dsimp only
  rw [if_pos ha]
  exact ⟨ordered_append hw (by omega) (fun _ => this), rfl⟩

/-- R191, R192: a RUN_END offered in an open window is admitted and closes it. -/
theorem offer_runEnd {run time : Nat} {body : RecordBody} {rs : ReportStore} (ho : rs.ordered)
    (hs : rs.window.isSome) (hb : ∃ o t v p n l, body = .runEnd o t v p n l) :
    (rs.offer run time body).ordered ∧ (rs.offer run time body).window.isSome = false := by
  obtain ⟨o, t, v, p, n, l, rfl⟩ := hb
  have hw := wrapNumbers_ordered ho
  have hl : (wrapNumbers rs).records.length ≤ 639 := hw.2.1 (by rw [wrapNumbers_window_isSome]; exact hs)
  unfold ReportStore.offer
  simp only [openWindow, closeWindow, admits, if_true]
  exact ⟨ordered_append hw hl (by simp), rfl⟩

theorem takeOldest_ordered {m : Nat} {rs : ReportStore} (h : rs.ordered) : (rs.takeOldest m).ordered := by
  obtain ⟨h1, h2, h3, h4⟩ := h
  refine ⟨?_, ?_, ?_, ?_⟩
  · simp [ReportStore.takeOldest]; omega
  · intro hs
    have := h2 hs
    simp [ReportStore.takeOldest]; omega
  · simp only [ReportStore.takeOldest, List.map_drop]
    exact h3.sublist (List.drop_sublist _ _)
  · intro r hr
    exact h4 r (List.mem_of_mem_drop hr)

/-- R189: an offer takes the next number, admitted or not; after the wrap it takes 1. -/
theorem offer_nextSeq (run time : Nat) (body : RecordBody) (rs : ReportStore) :
    (rs.offer run time body).nextSeq = (if rs.nextSeq ≤ topNumber then rs.nextSeq else 1) + 1 := by
  unfold ReportStore.offer wrapNumbers
  by_cases h : rs.nextSeq ≤ topNumber <;> simp only [h, if_true, if_false] <;> split <;> rfl

/-! ### What an offer leaves: everything but the store and the notice place -/

@[simp] theorem offer_count (run time : Nat) (x : RecordBody) (s : State) :
    (offer run time x s).count = s.count := by
    unfold offer judgeFill; dsimp only; split <;> rfl
@[simp] theorem offer_resetLine (run time : Nat) (x : RecordBody) (s : State) :
    (offer run time x s).resetLine = s.resetLine := by
    unfold offer judgeFill; dsimp only; split <;> rfl
@[simp] theorem offer_contactLines (run time : Nat) (x : RecordBody) (s : State) :
    (offer run time x s).contactLines = s.contactLines := by
    unfold offer judgeFill; dsimp only; split <;> rfl
@[simp] theorem offer_syncLine (run time : Nat) (x : RecordBody) (s : State) :
    (offer run time x s).syncLine = s.syncLine := by
    unfold offer judgeFill; dsimp only; split <;> rfl
@[simp] theorem offer_tb (run time : Nat) (x : RecordBody) (s : State) :
    (offer run time x s).tb = s.tb := by
    unfold offer judgeFill; dsimp only; split <;> rfl
@[simp] theorem offer_ci (run time : Nat) (x : RecordBody) (s : State) :
    (offer run time x s).ci = s.ci := by
    unfold offer judgeFill; dsimp only; split <;> rfl
@[simp] theorem offer_ws (run time : Nat) (x : RecordBody) (s : State) :
    (offer run time x s).ws = s.ws := by
    unfold offer judgeFill; dsimp only; split <;> rfl
@[simp] theorem offer_al (run time : Nat) (x : RecordBody) (s : State) :
    (offer run time x s).al = s.al := by
    unfold offer judgeFill; dsimp only; split <;> rfl
@[simp] theorem offer_bs (run time : Nat) (x : RecordBody) (s : State) :
    (offer run time x s).bs = s.bs := by
    unfold offer judgeFill; dsimp only; split <;> rfl
@[simp] theorem offer_bo (run time : Nat) (x : RecordBody) (s : State) :
    (offer run time x s).bo = s.bo := by
    unfold offer judgeFill; dsimp only; split <;> rfl
@[simp] theorem offer_st (run time : Nat) (x : RecordBody) (s : State) :
    (offer run time x s).st = s.st := by
    unfold offer judgeFill; dsimp only; split <;> rfl
@[simp] theorem offer_sq (run time : Nat) (x : RecordBody) (s : State) :
    (offer run time x s).sq = s.sq := by
    unfold offer judgeFill; dsimp only; split <;> rfl
@[simp] theorem offer_asmt (run time : Nat) (x : RecordBody) (s : State) :
    (offer run time x s).asmt = s.asmt := by
    unfold offer judgeFill; dsimp only; split <;> rfl
@[simp] theorem offer_free (run time : Nat) (x : RecordBody) (s : State) :
    (offer run time x s).free = s.free := by
    unfold offer judgeFill; dsimp only; split <;> rfl
@[simp] theorem offer_pending (run time : Nat) (x : RecordBody) (s : State) :
    (offer run time x s).pending = s.pending := by
    unfold offer judgeFill; dsimp only; split <;> rfl

@[simp] theorem offerRun_count (time : Nat) (x : RecordBody) (s : State) :
    (offerRun time x s).count = s.count := offer_count _ _ x s
@[simp] theorem offerRun_resetLine (time : Nat) (x : RecordBody) (s : State) :
    (offerRun time x s).resetLine = s.resetLine := offer_resetLine _ _ x s
@[simp] theorem offerRun_contactLines (time : Nat) (x : RecordBody) (s : State) :
    (offerRun time x s).contactLines = s.contactLines := offer_contactLines _ _ x s
@[simp] theorem offerRun_syncLine (time : Nat) (x : RecordBody) (s : State) :
    (offerRun time x s).syncLine = s.syncLine := offer_syncLine _ _ x s
@[simp] theorem offerRun_tb (time : Nat) (x : RecordBody) (s : State) :
    (offerRun time x s).tb = s.tb := offer_tb _ _ x s
@[simp] theorem offerRun_ci (time : Nat) (x : RecordBody) (s : State) :
    (offerRun time x s).ci = s.ci := offer_ci _ _ x s
@[simp] theorem offerRun_ws (time : Nat) (x : RecordBody) (s : State) :
    (offerRun time x s).ws = s.ws := offer_ws _ _ x s
@[simp] theorem offerRun_al (time : Nat) (x : RecordBody) (s : State) :
    (offerRun time x s).al = s.al := offer_al _ _ x s
@[simp] theorem offerRun_bs (time : Nat) (x : RecordBody) (s : State) :
    (offerRun time x s).bs = s.bs := offer_bs _ _ x s
@[simp] theorem offerRun_bo (time : Nat) (x : RecordBody) (s : State) :
    (offerRun time x s).bo = s.bo := offer_bo _ _ x s
@[simp] theorem offerRun_st (time : Nat) (x : RecordBody) (s : State) :
    (offerRun time x s).st = s.st := offer_st _ _ x s
@[simp] theorem offerRun_sq (time : Nat) (x : RecordBody) (s : State) :
    (offerRun time x s).sq = s.sq := offer_sq _ _ x s
@[simp] theorem offerRun_asmt (time : Nat) (x : RecordBody) (s : State) :
    (offerRun time x s).asmt = s.asmt := offer_asmt _ _ x s
@[simp] theorem offerRun_free (time : Nat) (x : RecordBody) (s : State) :
    (offerRun time x s).free = s.free := offer_free _ _ x s
@[simp] theorem offerRun_pending (time : Nat) (x : RecordBody) (s : State) :
    (offerRun time x s).pending = s.pending := offer_pending _ _ x s

@[simp] theorem offerAt_count (count : Nat) (x : RecordBody) (s : State) :
    (offerAt count x s).count = s.count := by
    unfold offerAt; split <;> exact offer_count _ _ x s
@[simp] theorem offerAt_resetLine (count : Nat) (x : RecordBody) (s : State) :
    (offerAt count x s).resetLine = s.resetLine := by
    unfold offerAt; split <;> exact offer_resetLine _ _ x s
@[simp] theorem offerAt_contactLines (count : Nat) (x : RecordBody) (s : State) :
    (offerAt count x s).contactLines = s.contactLines := by
    unfold offerAt; split <;> exact offer_contactLines _ _ x s
@[simp] theorem offerAt_syncLine (count : Nat) (x : RecordBody) (s : State) :
    (offerAt count x s).syncLine = s.syncLine := by
    unfold offerAt; split <;> exact offer_syncLine _ _ x s
@[simp] theorem offerAt_tb (count : Nat) (x : RecordBody) (s : State) :
    (offerAt count x s).tb = s.tb := by
    unfold offerAt; split <;> exact offer_tb _ _ x s
@[simp] theorem offerAt_ci (count : Nat) (x : RecordBody) (s : State) :
    (offerAt count x s).ci = s.ci := by
    unfold offerAt; split <;> exact offer_ci _ _ x s
@[simp] theorem offerAt_ws (count : Nat) (x : RecordBody) (s : State) :
    (offerAt count x s).ws = s.ws := by
    unfold offerAt; split <;> exact offer_ws _ _ x s
@[simp] theorem offerAt_al (count : Nat) (x : RecordBody) (s : State) :
    (offerAt count x s).al = s.al := by
    unfold offerAt; split <;> exact offer_al _ _ x s
@[simp] theorem offerAt_bs (count : Nat) (x : RecordBody) (s : State) :
    (offerAt count x s).bs = s.bs := by
    unfold offerAt; split <;> exact offer_bs _ _ x s
@[simp] theorem offerAt_bo (count : Nat) (x : RecordBody) (s : State) :
    (offerAt count x s).bo = s.bo := by
    unfold offerAt; split <;> exact offer_bo _ _ x s
@[simp] theorem offerAt_st (count : Nat) (x : RecordBody) (s : State) :
    (offerAt count x s).st = s.st := by
    unfold offerAt; split <;> exact offer_st _ _ x s
@[simp] theorem offerAt_sq (count : Nat) (x : RecordBody) (s : State) :
    (offerAt count x s).sq = s.sq := by
    unfold offerAt; split <;> exact offer_sq _ _ x s
@[simp] theorem offerAt_asmt (count : Nat) (x : RecordBody) (s : State) :
    (offerAt count x s).asmt = s.asmt := by
    unfold offerAt; split <;> exact offer_asmt _ _ x s
@[simp] theorem offerAt_free (count : Nat) (x : RecordBody) (s : State) :
    (offerAt count x s).free = s.free := by
    unfold offerAt; split <;> exact offer_free _ _ x s
@[simp] theorem offerAt_pending (count : Nat) (x : RecordBody) (s : State) :
    (offerAt count x s).pending = s.pending := by
    unfold offerAt; split <;> exact offer_pending _ _ x s

end Sys2Proof.Machine
end

