-- ==== Sys2Proof/Laws/Frames.lean ====
section
/-! SUPPORT. Three relations between the states before and after an operation, and a lemma for each shared
operation up to the breaker simulator: `Quiet` (the control link's slots, the lines and the queue are left),
`Kept` (also no run begins or ends) and `Sound` (a coherent run stays coherent). -/

namespace Sys2Proof.Machine

/-- The operation leaves the control link but for its notice place, and the count, lines, queue. -/
structure Quiet (s t : State) : Prop where
  receiver : t.cl.receiver = s.cl.receiver
  lastStop : t.cl.lastStop = s.cl.lastStop
  inService : t.cl.inService = s.cl.inService
  holding : t.cl.holding = s.cl.holding
  answers : t.cl.answers = s.cl.answers
  line : t.cl.line = s.cl.line
  count : t.count = s.count
  resetLine : t.resetLine = s.resetLine
  pending : t.pending = s.pending

theorem Quiet.refl (s : State) : Quiet s s := ⟨rfl, rfl, rfl, rfl, rfl, rfl, rfl, rfl, rfl⟩

theorem Quiet.trans {s t u : State} (h : Quiet s t) (k : Quiet t u) : Quiet s u :=
  ⟨k.1.trans h.1, k.2.trans h.2, k.3.trans h.3, k.4.trans h.4, k.5.trans h.5, k.6.trans h.6, k.7.trans h.7,
    k.8.trans h.8, k.9.trans h.9⟩

/-- The operation begins and ends no run. -/
structure Kept (s t : State) : Prop where
  quiet : Quiet s t
  inRun : t.inRun = s.inRun
  idle : t.sq.state = .idle ↔ s.sq.state = .idle
  settings : t.sq.settings = s.sq.settings
  window : t.rs.window.isSome = s.rs.window.isSome
  latch : t.tb.latch = s.tb.latch
  active : t.bs.active = s.bs.active
  ordered : s.rs.ordered → t.rs.ordered

theorem Kept.refl (s : State) : Kept s s := ⟨.refl s, rfl, .rfl, rfl, rfl, rfl, rfl, id⟩

theorem Kept.trans {s t u : State} (h : Kept s t) (k : Kept t u) : Kept s u :=
  ⟨h.1.trans k.1, k.2.trans h.2, k.3.trans h.3, k.4.trans h.4, k.5.trans h.5, k.6.trans h.6, k.7.trans h.7,
    k.8 ∘ h.8⟩

/-- The operation keeps the run coherent. -/
structure Sound (s t : State) : Prop where
  quiet : Quiet s t
  coherent : runCoherent s → runCoherent t

theorem Sound.refl (s : State) : Sound s s := ⟨.refl s, id⟩

theorem Sound.trans {s t u : State} (h : Sound s t) (k : Sound t u) : Sound s u :=
  ⟨h.1.trans k.1, k.2 ∘ h.2⟩

theorem Kept.sound {s t : State} (h : Kept s t) : Sound s t := by
  refine ⟨h.quiet, fun ⟨h1, h2, h3, h4, h5⟩ => ⟨h.ordered h1, ?_, ?_, ?_, ?_⟩⟩
  · rw [h.window, h.inRun, h2]
  · rw [h.latch, h.inRun, h3]
  · rw [h.active, h.inRun, h4]
  · rw [h.settings, h5, not_iff_not, h.idle]

/-- An update of fields that no run boundary concerns. -/
theorem Kept.of_eq {s t : State} (hc : t.cl = s.cl) (h1 : t.count = s.count) (h2 : t.resetLine = s.resetLine)
    (h3 : t.pending = s.pending) (h4 : t.sq.state = s.sq.state) (h5 : t.sq.settings = s.sq.settings)
    (h6 : t.rs = s.rs) (h7 : t.tb.latch = s.tb.latch) (h8 : t.bs.active = s.bs.active) : Kept s t :=
  ⟨⟨by rw [hc], by rw [hc], by rw [hc], by rw [hc], by rw [hc], by rw [hc], h1, h2, h3⟩,
    by unfold State.inRun; rw [h4], by rw [h4], h5, by rw [h6], h7, h8, by rw [h6]; exact id⟩

theorem Kept.fold {α : Type} {f : State → α → State} (h : ∀ s a, Kept s (f s a)) (l : List α) (s : State) :
    Kept s (l.foldl f s) := by
  induction l generalizing s with
  | nil => exact .refl s
  | cons a l ih => exact (h s a).trans (ih (f s a))

theorem Sound.fold {α : Type} {f : State → α → State} (h : ∀ s a, Sound s (f s a)) (l : List α) (s : State) :
    Sound s (l.foldl f s) := by
  induction l generalizing s with
  | nil => exact .refl s
  | cons a l ih => exact (h s a).trans (ih (f s a))

/-! ### Notices and records -/

theorem raiseNotice_kept (c : NoticeCause) (s : State) : Kept s (raiseNotice c s) :=
  ⟨⟨rfl, rfl, rfl, rfl, rfl, rfl, rfl, rfl, rfl⟩, rfl, .rfl, rfl, rfl, rfl, rfl, id⟩

theorem judgeFill_kept (grew : Bool) (s : State) : Kept s (judgeFill grew s) := by
  unfold judgeFill
  split
  · refine Kept.trans ?_ (raiseNotice_kept _ _)
    exact ⟨⟨rfl, rfl, rfl, rfl, rfl, rfl, rfl, rfl, rfl⟩, rfl, .rfl, rfl, rfl, rfl, rfl, id⟩
  · exact .refl s

/-- The offer of a record that opens or closes no run window. -/
theorem offer_kept (run time : Nat) {body : RecordBody} (h : body.isBoundary = false) (s : State) :
    Kept s (offer run time body s) := by
  unfold offer
  refine Kept.trans ?_ (judgeFill_kept _ _)
  exact ⟨⟨rfl, rfl, rfl, rfl, rfl, rfl, rfl, rfl, rfl⟩, rfl, .rfl, rfl, offer_window run time body s.rs h, rfl, rfl,
    offer_ordered h⟩

theorem offerRun_kept (time : Nat) {body : RecordBody} (h : body.isBoundary = false) (s : State) :
    Kept s (offerRun time body s) := offer_kept _ _ h s

theorem offerAt_kept (count : Nat) {body : RecordBody} (h : body.isBoundary = false) (s : State) :
    Kept s (offerAt count body s) := by
  unfold offerAt; split <;> exact offer_kept _ _ h s

theorem refreshOutputs_kept (b : Bool) (s : State) : Kept s (refreshOutputs b s) :=
  .of_eq rfl rfl rfl rfl rfl rfl rfl rfl rfl

/-! ### Assessment -/

theorem tally_visit (d : Decision) (a : Assessment) : (a.tally d).visit = a.visit := by cases d <;> rfl

theorem decideItem_kept (k : Nat) (x : ItemRun) (d : Decision) (m : Option Int) (head : Nat) (s : State) :
    Kept s (decideItem k x d m head s) := by
  unfold decideItem
  split
  · exact .refl s
  · refine Kept.trans (t := _) ?_ (offerRun_kept _ (by rfl) _)
    exact .of_eq rfl rfl rfl rfl rfl rfl rfl rfl rfl

theorem judgeItem_kept (x : Subject) (t head : Nat) (s : State) (k : Nat) : Kept s (judgeItem x t head s k) := by
  unfold judgeItem
  repeat' split
  all_goals first | with_reducible exact .refl s | skip
  dsimp only
  split
  · exact decideItem_kept _ _ _ _ _ s
  · exact .refl s

theorem assessEvent_kept (x : Subject) (t head : Nat) (s : State) : Kept s (assessEvent x t head s) :=
  .fold (fun s k => judgeItem_kept x t head s k) _ s

theorem endItem_kept (a : Bool) (head : Nat) (s : State) (k : Nat) : Kept s (endItem a head s k) := by
  unfold endItem
  repeat' split
  all_goals first | with_reducible exact .refl s | exact decideItem_kept _ _ _ _ _ s

theorem endVisit_kept (a : Bool) (head : Nat) (s : State) : Kept s (endVisit a head s) :=
  (Kept.fold (fun s k => endItem_kept a head s k) _ s).trans (.of_eq rfl rfl rfl rfl rfl rfl rfl rfl rfl)

theorem openVisit_kept (n : Fin 24) (c t : Nat) (l : List Item) (s : State) : Kept s (openVisit n c t l s) :=
  .of_eq rfl rfl rfl rfl rfl rfl rfl rfl rfl

theorem assessBreakerEvents_kept (l : List BreakerEvent) (t head : Nat) (s : State) :
    Kept s (assessBreakerEvents l t head s) := by
  refine .fold (fun s e => ?_) _ s
  split
  · exact assessEvent_kept _ _ _ s
  · exact .refl s

/-! ### Synthesis -/

theorem loadEntry_kept (e : Entry) (s : State) : Kept s (loadEntry e s) :=
  .of_eq rfl rfl rfl rfl rfl rfl rfl rfl rfl

theorem dropOpenDc_kept (s : State) : Kept s (dropOpenDc s) := .of_eq rfl rfl rfl rfl rfl rfl rfl rfl rfl

theorem putClip_kept (ch : Fin 8) (b : Bool) (s : State) : Kept s (putClip ch b s) :=
  .of_eq rfl rfl rfl rfl rfl rfl rfl rfl rfl

theorem clipEpisode_kept (t : Nat) (s : State) (ch : Fin 8) : Kept s (clipEpisode t s ch) := by
  unfold clipEpisode
  dsimp only
  repeat' split
  all_goals first | with_reducible exact .refl s | exact (putClip_kept _ _ s).trans (offerRun_kept _ (by rfl) _)

theorem clipEpisodes_kept (t : Nat) (s : State) : Kept s (clipEpisodes t s) :=
  .fold (fun s ch => clipEpisode_kept t s ch) _ s

theorem advanceAll_kept (s : State) : Kept s (advanceAll s) := .of_eq rfl rfl rfl rfl rfl rfl rfl rfl rfl

theorem clearSynthesis_kept (s : State) : Kept s (clearSynthesis s) := .of_eq rfl rfl rfl rfl rfl rfl rfl rfl rfl

theorem closeClip_kept (t : Nat) (s : State) (ch : Fin 8) : Kept s (closeClip t s ch) := by
  unfold closeClip
  split
  · exact (putClip_kept _ _ s).trans (offerRun_kept _ (by rfl) _)
  · exact .refl s

theorem closeClips_kept (t : Nat) (s : State) : Kept s (closeClips t s) :=
  .fold (fun s ch => closeClip_kept t s ch) _ s

/-! ### Breaker simulator -/

theorem breakerRecord_kept (t : Nat) (x : BreakerSubject) (e : BreakerRecord) (d : Option Nat) (s : State) :
    Kept s (breakerRecord t x e d s) := offerRun_kept _ (by rfl) s

theorem putPole_kept (p : Pole) (x : Position) (s : State) : Kept s (putPole p x s) :=
  .of_eq rfl rfl rfl rfl rfl rfl rfl rfl rfl

theorem tripFree_kept (t : Nat) (p : Pole) (start : Nat) (s : State) : Kept s (tripFree t p start s) :=
  (putPole_kept _ _ s).trans (breakerRecord_kept _ _ _ _ _)

theorem tripPole_kept (te : Nat) (s : State) (p : Pole) : Kept s (tripPole te s p) := by
  unfold tripPole
  split
  · exact (putPole_kept _ _ s).trans (breakerRecord_kept _ _ _ _ _)
  · exact .refl s
  · exact .refl s
  · exact .refl s
  · exact tripFree_kept _ _ _ s

theorem tripPoles_kept (l : List Pole) (te : Nat) (s : State) : Kept s (tripPoles l te s) :=
  .fold (fun s p => tripPole_kept te s p) l s

theorem closeBreaker_kept (te : Nat) (s : State) : Kept s (closeBreaker te s) := by
  unfold closeBreaker
  split
  · exact breakerRecord_kept _ _ _ _ s
  · exact breakerRecord_kept _ _ _ _ s
  · refine Kept.trans ?_ (breakerRecord_kept _ _ _ _ _)
    exact .of_eq rfl rfl rfl rfl rfl rfl rfl rfl rfl

theorem partContacts_kept (t : Nat) (s : State) (p : Pole) : Kept s (partContacts t s p) := by
  unfold partContacts
  repeat' split
  all_goals first | with_reducible exact .refl s | exact (putPole_kept _ _ s).trans (breakerRecord_kept _ _ _ _ _)

theorem forceOpen_kept (t : Nat) (s : State) (p : Pole) : Kept s (forceOpen t s p) := by
  unfold forceOpen
  repeat' split
  all_goals first | with_reducible exact .refl s | exact (putPole_kept _ _ s).trans (breakerRecord_kept _ _ _ _ _)

theorem finishClosing_kept (t : Nat) (s : State) (p : Pole) : Kept s (finishClosing t s p) := by
  unfold finishClosing
  repeat' split
  all_goals first | with_reducible exact .refl s | exact (putPole_kept _ _ s).trans (breakerRecord_kept _ _ _ _ _)

theorem breakerExpiries_kept (t : Nat) (s : State) : Kept s (breakerExpiries t s) := by
  have h := ((Kept.fold (fun s p => partContacts_kept t s p) poleOrder s).trans
    (Kept.fold (fun s p => forceOpen_kept t s p) poleOrder _)).trans
    (Kept.fold (fun s p => finishClosing_kept t s p) poleOrder _)
  unfold breakerExpiries
  dsimp only
  split
  · exact h.trans (breakerRecord_kept _ _ _ _ _)
  · exact h

theorem interruptPole_kept (t : Nat) (s : State) (p : Pole) : Kept s (interruptPole t s p) := by
  unfold interruptPole
  repeat' split
  all_goals first | with_reducible exact .refl s | skip
  dsimp only
  split
  · exact (putPole_kept _ _ s).trans (breakerRecord_kept _ _ _ _ _)
  · exact .refl s

theorem interruptPoles_kept (t : Nat) (s : State) : Kept s (interruptPoles t s) :=
  .fold (fun s p => interruptPole_kept t s p) _ s

theorem chargeSpring_kept (t : Nat) (s : State) : Kept s (chargeSpring t s) := by
  unfold chargeSpring
  repeat' split
  all_goals first | with_reducible exact .refl s | skip
  refine Kept.trans ?_ (breakerRecord_kept _ _ _ _ _)
  exact .of_eq rfl rfl rfl rfl rfl rfl rfl rfl rfl

theorem discrepancyPole_kept (t : Nat) (s : State) (p : Pole) : Kept s (discrepancyPole t s p) := by
  unfold discrepancyPole
  repeat' split
  all_goals first | with_reducible exact .refl s | exact putPole_kept _ _ s | exact tripFree_kept _ _ _ s

theorem discrepancyTrip_kept (t start : Nat) (s : State) : Kept s (discrepancyTrip t start s) :=
  (Kept.fold (fun s p => discrepancyPole_kept t s p) _ s).trans (breakerRecord_kept _ _ _ _ _)

theorem putDiscrepancy_kept (x : Discrepancy) (s : State) : Kept s (putDiscrepancy x s) :=
  .of_eq rfl rfl rfl rfl rfl rfl rfl rfl rfl

theorem judgeDiscrepancy_kept (t : Nat) (s : State) : Kept s (judgeDiscrepancy t s) := by
  unfold judgeDiscrepancy
  repeat' split
  all_goals first
    | with_reducible exact .refl s
    | exact putDiscrepancy_kept _ s
    | exact (putDiscrepancy_kept _ s).trans (discrepancyTrip_kept _ _ _)

theorem applyInitial_kept (s : State) : Kept s (applyInitial s) := .of_eq rfl rfl rfl rfl rfl rfl rfl rfl rfl

theorem resolvePole_kept (t : Nat) (s : State) (p : Pole) : Kept s (resolvePole t s p) := by
  unfold resolvePole
  split
  · exact (putPole_kept _ _ s).trans (breakerRecord_kept _ _ _ _ _)
  · exact .refl s

end Sys2Proof.Machine
end

