-- ==== Sys2Proof/Laws/Runs.lean ====
section
/-! SUPPORT. The sequencer's operations in the relations of Laws/Frames.lean: a run's end, its exits, its entries,
its samples and its start. -/

namespace Sys2Proof.Machine

theorem decrementBy_kept (x : CounterSource) (s : State) : Kept s (decrementBy x s) :=
  .of_eq rfl rfl rfl rfl rfl rfl rfl rfl rfl

theorem putInput_kept (k : Fin 12) (x : ContactInput) (s : State) : Kept s (putInput k x s) :=
  .of_eq rfl rfl rfl rfl rfl rfl rfl rfl rfl

theorem putSync_kept (x : SyncInput) (s : State) : Kept s (putSync x s) :=
  .of_eq rfl rfl rfl rfl rfl rfl rfl rfl rfl

theorem writePending_kept (t : Nat) (s : State) (k : Fin 12) : Kept s (writePending t s k) := by
  unfold writePending
  dsimp only
  split
  · exact (putInput_kept _ _ s).trans (offerRun_kept _ (by rfl) _)
  · exact .refl s

theorem writePendingSync_kept (t : Nat) (s : State) : Kept s (writePendingSync t s) := by
  unfold writePendingSync
  split
  · exact (putSync_kept _ s).trans (offerRun_kept _ (by rfl) _)
  · exact .refl s

theorem writeAllPending_kept (t : Nat) (s : State) : Kept s (writeAllPending t s) :=
  (writePendingSync_kept t s).trans (.fold (fun s k => writePending_kept t s k) _ _)

/-! ### Run end -/

/-- Before its last step, the run end is a kept run whose breaker simulator has become INACTIVE. -/
theorem closeAccounts_kept (o : RunOutcome) (t : Nat) (s : State) :
    ∃ u, Kept s u ∧ closeAccounts o t s = { u with bs := { u.bs with
      spring := stopSpring u.bs.spring, discrepancy := .idle, active := false } } := by
  refine ⟨_, ?_, rfl⟩
  refine Kept.trans ?_ (Kept.fold (fun s p => resolvePole_kept t s p) poleOrder _)
  refine Kept.trans ?_ (clearSynthesis_kept _)
  refine Kept.trans ?_ (closeClips_kept t _)
  refine Kept.trans ?_ (writeAllPending_kept t _)
  refine Kept.trans ?_ (endVisit_kept _ t _)
  exact .of_eq rfl rfl rfl rfl rfl rfl rfl rfl rfl

theorem toIdle_quiet (s : State) : Quiet s (toIdle s) := ⟨rfl, rfl, rfl, rfl, rfl, rfl, rfl, rfl, rfl⟩

theorem goOn_quiet (o : RunOutcome) (s : State) : Quiet s (goOn o s) := by
  unfold goOn
  repeat' split
  all_goals exact ⟨rfl, rfl, rfl, rfl, rfl, rfl, rfl, rfl, rfl⟩

/-- R169: what a run end leaves of the sequencer. -/
theorem goOn_spec (o : RunOutcome) (s : State) :
    (goOn o s).inRun = false ∧ ((goOn o s).sq.settings.isSome ↔ (goOn o s).sq.state ≠ .idle) ∧
      (goOn o s).rs = s.rs ∧ (goOn o s).tb = s.tb ∧ (goOn o s).bs = s.bs := by
  unfold goOn
  split
  · rename_i r h
    split
    · split
      · exact ⟨rfl, by simp [h], rfl, rfl, rfl⟩
      · exact ⟨rfl, by simp, rfl, rfl, rfl⟩
    · exact ⟨rfl, by simp [h], rfl, rfl, rfl⟩
    · exact ⟨rfl, by simp, rfl, rfl, rfl⟩
  · exact ⟨rfl, by simp, rfl, rfl, rfl⟩

theorem offer_quiet (run time : Nat) (body : RecordBody) (s : State) : Quiet s (offer run time body s) := by
  unfold offer
  refine Quiet.trans ?_ (judgeFill_kept _ _).quiet
  exact ⟨rfl, rfl, rfl, rfl, rfl, rfl, rfl, rfl, rfl⟩

theorem judgeFill_window (grew : Bool) (s : State) : (judgeFill grew s).rs.window = s.rs.window := by
  unfold judgeFill; split <;> rfl

theorem judgeFill_ordered (grew : Bool) (s : State) : (judgeFill grew s).rs.ordered ↔ s.rs.ordered := by
  unfold judgeFill; split <;> exact .rfl

/-- The store after an offer is the offered store, in order and window. -/
theorem offer_store (run time : Nat) (body : RecordBody) (s : State) :
    ((offer run time body s).rs.ordered ↔ (s.rs.offer run time body).ordered) ∧
      (offer run time body s).rs.window = (s.rs.offer run time body).window := by
  unfold offer
  exact ⟨judgeFill_ordered _ _, judgeFill_window _ _⟩

theorem finishRun_quiet (o : RunOutcome) (t : Nat) (s : State) : Quiet s (finishRun o t s) := by
  unfold finishRun
  refine Quiet.trans (t := offerRun t (runEndBody o t s) s) (offer_quiet _ _ _ s) ?_
  exact ⟨rfl, rfl, rfl, rfl, rfl, rfl, rfl, rfl, rfl⟩

theorem finishRun_spec (o : RunOutcome) (t : Nat) (s : State) (ho : s.rs.ordered) (hw : s.rs.window.isSome) :
    (finishRun o t s).rs.ordered ∧ (finishRun o t s).rs.window.isSome = false ∧
      (finishRun o t s).tb.latch = none ∧ (finishRun o t s).bs.active = s.bs.active := by
  have h := offer_runEnd (run := s.sq.runNumber) (time := t) (body := runEndBody o t s) ho hw
    ⟨_, _, _, _, _, _, rfl⟩
  have k := offer_store s.sq.runNumber t (runEndBody o t s) s
  refine ⟨k.1.2 h.1, ?_, rfl, ?_⟩
  · have : (finishRun o t s).rs.window = (offer s.sq.runNumber t (runEndBody o t s) s).rs.window := rfl
    rw [this, k.2]; exact h.2
  · have : (finishRun o t s).bs = (offer s.sq.runNumber t (runEndBody o t s) s).bs := rfl
    rw [this, offer_bs]

theorem runEnd_quiet (o : RunOutcome) (s : State) : Quiet s (runEnd o s) := by
  obtain ⟨u, hu, he⟩ := closeAccounts_kept o s.now s
  unfold runEnd
  dsimp only
  refine Quiet.trans ?_ (goOn_quiet _ _)
  refine Quiet.trans ?_ (finishRun_quiet _ _ _)
  rw [he]
  exact hu.quiet.trans ⟨rfl, rfl, rfl, rfl, rfl, rfl, rfl, rfl, rfl⟩

/-- R166 to R169: a run end leaves no run in progress. -/
theorem runEnd_inRun (o : RunOutcome) (s : State) : (runEnd o s).inRun = false := (goOn_spec _ _).1

/-- R166 to R169: a run end in a run keeps the run coherent. -/
theorem runEnd_sound (o : RunOutcome) (s : State) (hr : s.inRun = true) : Sound s (runEnd o s) := by
  refine ⟨runEnd_quiet o s, fun ⟨h1, h2, _, _, _⟩ => ?_⟩
  obtain ⟨u, hu, he⟩ := closeAccounts_kept o s.now s
  have hf := finishRun_spec o s.now (closeAccounts o s.now s) (by rw [he]; exact hu.ordered h1)
    (by rw [he]; change u.rs.window.isSome = true; rw [hu.window, h2, hr])
  have hg := goOn_spec o (finishRun o s.now (closeAccounts o s.now s))
  have e : runEnd o s = goOn o (finishRun o s.now (closeAccounts o s.now s)) := rfl
  rw [e]
  refine ⟨?_, ?_, ?_, ?_, hg.2.1⟩
  · rw [hg.2.2.1]; exact hf.1
  · rw [hg.2.2.1, hg.1]; exact hf.2.1
  · rw [hg.2.2.2.1, hg.1, hf.2.2.1]; rfl
  · rw [hg.2.2.2.2, hg.1, hf.2.2.2, he]

/-- R150, R165, R170: a wait that ends. -/
theorem endWait_sound (s : State) (hr : s.inRun = false) : Sound s (endWait s) := by
  refine ⟨(toIdle_quiet s).trans (raiseNotice_kept _ _).quiet, fun ⟨h1, h2, h3, h4, _⟩ => ?_⟩
  refine ⟨h1, ?_, ?_, ?_, by simp [endWait]⟩
  · exact h2.trans hr
  · exact h3.trans hr
  · exact h4.trans hr

theorem toIdle_sound (s : State) (hr : s.inRun = false) : Sound s (toIdle s) := by
  refine ⟨toIdle_quiet s, fun ⟨h1, h2, h3, h4, _⟩ => ?_⟩
  refine ⟨h1, ?_, ?_, ?_, by simp⟩
  · exact h2.trans hr
  · exact h3.trans hr
  · exact h4.trans hr

/-! ### Exits -/

theorem latchExit_kept (g : Guard) (i t : Nat) (s : State) : Kept s (latchExit g i t s) :=
  .of_eq rfl rfl rfl rfl rfl rfl rfl rfl rfl

theorem inRun_of_running {s : State} (h : s.sq.state = .running) : s.inRun = true := by
  unfold State.inRun; rw [h]; rfl

theorem inRun_of_pointing {s : State} (h : s.sq.state = .pointing) : s.inRun = true := by
  unfold State.inRun; rw [h]; rfl

theorem not_idle_of_inRun {s : State} (h : s.inRun = true) : s.sq.state ≠ .idle := by
  intro e; unfold State.inRun at h; rw [e] at h; exact absurd h (by decide)

theorem inRun_of_judges {s : State} (h : s.judges = true) : s.inRun = true := by
  unfold State.judges at h
  simp only [Bool.and_eq_true, decide_eq_true_eq] at h
  exact inRun_of_running h.1

/-- A state of the sequencer taken for another inside a run. -/
theorem Kept.of_run {s t : State} (hc : t.cl = s.cl) (h1 : t.count = s.count) (h2 : t.resetLine = s.resetLine)
    (h3 : t.pending = s.pending) (hs : s.inRun = true) (ht : t.inRun = true)
    (h5 : t.sq.settings = s.sq.settings) (h6 : t.rs = s.rs) (h7 : t.tb.latch = s.tb.latch)
    (h8 : t.bs.active = s.bs.active) : Kept s t :=
  ⟨⟨by rw [hc], by rw [hc], by rw [hc], by rw [hc], by rw [hc], by rw [hc], h1, h2, h3⟩, by rw [hs, ht],
    ⟨fun h => absurd h (not_idle_of_inRun ht), fun h => absurd h (not_idle_of_inRun hs)⟩, h5, by rw [h6], h7, h8,
    by rw [h6]; exact id⟩

theorem takeExit_sound (i : Nat) (x : Exit) (t : Nat) (c : Option Nat) (s : State) (hr : s.inRun = true) :
    Sound s (takeExit i x t c s) := by
  unfold takeExit
  refine Sound.trans (t := { s with sq := { s.sq with
    marks := applyMarkAction x.action s.sq.marks
    taken := some ⟨x.target, Fin.ofNat 6 i, t, c⟩
    guard := none } }) (Kept.sound (.of_eq rfl rfl rfl rfl rfl rfl rfl rfl rfl)) ?_
  generalize hu : ({ s with sq := { s.sq with
    marks := applyMarkAction x.action s.sq.marks
    taken := some ⟨x.target, Fin.ofNat 6 i, t, c⟩
    guard := none } } : State) = u
  have hr' : u.inRun = true := by rw [← hu]; exact hr
  dsimp only
  split
  · exact .refl u
  · split
    · exact runEnd_sound _ u hr'
    · split
      · exact Kept.sound (.of_run rfl rfl rfl rfl hr' (inRun_of_pointing rfl) rfl rfl rfl rfl)
      · exact .refl u

theorem judgeEvent_sound (m : Trigger → Bool) (t : Nat) (s : State) : Sound s (judgeEvent m t s) := by
  unfold judgeEvent
  split
  · rename_i hj
    have hr := inRun_of_judges hj
    repeat' split
    all_goals first
      | with_reducible exact .refl s
      | exact (latchExit_kept _ _ _ s).sound
      | exact takeExit_sound _ _ _ _ s hr
  · exact .refl s

theorem expireGuard_sound (e : Entry) (l : Option Latch) (f : Option (Exit × Nat)) (t : Nat) (s : State)
    (hr : s.inRun = true) : Sound s (expireGuard e l f t s) := by
  unfold expireGuard
  refine Sound.trans (t := { s with sq := { s.sq with guard := none } })
    (Kept.sound (.of_eq rfl rfl rfl rfl rfl rfl rfl rfl rfl)) ?_
  have hr' : ({ s with sq := { s.sq with guard := none } } : State).inRun = true := hr
  generalize ({ s with sq := { s.sq with guard := none } } : State) = u at *
  dsimp only
  repeat' split
  all_goals first
    | with_reducible exact .refl _
    | exact takeExit_sound _ _ _ _ _ hr'

theorem judgeSample_sound (c : Nat) (l : List BreakerEvent) (s : State) : Sound s (judgeSample c l s) := by
  unfold judgeSample
  dsimp only
  split
  · rename_i hj
    have hr := inRun_of_judges hj
    repeat' split
    all_goals first
      | with_reducible exact .refl s
      | exact (latchExit_kept _ _ _ s).sound
      | exact takeExit_sound _ _ _ _ s hr
      | exact expireGuard_sound _ _ _ _ s hr
  · exact .refl s

theorem sequenceEdge_sound (n : Fin 13) (d : Direction) (t : Nat) (s : State) : Sound s (sequenceEdge n d t s) := by
  unfold sequenceEdge
  split
  · exact (decrementBy_kept _ s).sound.trans (judgeEvent_sound _ _ _)
  · exact judgeEvent_sound _ _ s

theorem handCommandEvents_sound (c : Option CounterSource) (l : List BreakerEvent) (t : Nat) (s : State) :
    Sound s (handCommandEvents c l t s) := by
  unfold handCommandEvents
  dsimp only
  refine Sound.trans (Sound.trans ?_ (assessBreakerEvents_kept l t _ _).sound) (judgeEvent_sound _ _ _)
  split
  · exact (decrementBy_kept _ _).sound
  · exact .refl _

/-! ### State entry and samples -/

theorem loadCounters_kept (e : Entry) (s : State) : Kept s (loadCounters e s) :=
  .of_eq rfl rfl rfl rfl rfl rfl rfl rfl rfl

theorem loadPattern_kept (p : BitVec 8) (s : State) : Kept s (loadPattern p s) :=
  .of_eq rfl rfl rfl rfl rfl rfl rfl rfl rfl

theorem countVisit_kept (n : Fin 24) (s : State) : Kept s (countVisit n s) :=
  .of_eq rfl rfl rfl rfl rfl rfl rfl rfl rfl

theorem setGuard_kept (e : Entry) (t : Nat) (s : State) : Kept s (setGuard e t s) :=
  .of_eq rfl rfl rfl rfl rfl rfl rfl rfl rfl

theorem enterState_kept (n : Fin 24) (t : Nat) (s : State) (hr : s.inRun = true) : Kept s (enterState n t s) := by
  unfold enterState
  split
  · exact .refl s
  · dsimp only
    refine Kept.trans ?_ (setGuard_kept _ _ _)
    refine Kept.trans ?_ (openVisit_kept _ _ _ _ _)
    refine Kept.trans ?_ (offerRun_kept _ (by rfl) _)
    refine Kept.trans ?_ (countVisit_kept _ _)
    refine Kept.trans ?_ (loadPattern_kept _ _)
    refine Kept.trans ?_ (loadEntry_kept _ _)
    refine Kept.trans ?_ (decrementBy_kept _ _)
    refine Kept.trans ?_ (loadCounters_kept _ _)
    refine Kept.trans (endVisit_kept false t s) ?_
    exact .of_run rfl rfl rfl rfl ((endVisit_kept false t s).inRun.trans hr) (inRun_of_running rfl) rfl rfl rfl rfl

theorem beginSample_kept (t : Nat) (s : State) (hr : s.inRun = true) : Kept s (beginSample t s) := by
  unfold beginSample
  split
  · exact enterState_kept _ _ s hr
  · exact .refl s

theorem computeWaves_kept (t : Nat) (s : State) : Kept s (computeWaves t s).1 := by
  unfold computeWaves
  dsimp only
  refine Kept.trans ?_ (advanceAll_kept _)
  refine Kept.trans ?_ (clipEpisodes_kept t _)
  refine Kept.trans ?_ (interruptPoles_kept t _)
  split
  · exact dropOpenDc_kept s
  · exact .refl s

theorem computeSample_kept (t : Nat) (s : State) : Kept s (computeSample t s).1 := by
  unfold computeSample
  dsimp only
  refine Kept.trans ?_ (refreshOutputs_kept _ _)
  refine Kept.trans ?_ (judgeDiscrepancy_kept t _)
  refine Kept.trans ?_ (chargeSpring_kept t _)
  exact (breakerExpiries_kept t s).trans (computeWaves_kept t _)

theorem judgeSampleEvents_sound (c : Nat) (l : List BreakerEvent) (s : State) :
    Sound s (judgeSampleEvents c l s) := by
  unfold judgeSampleEvents
  refine Sound.trans (assessBreakerEvents_kept l (s.runTimeAt c) (s.runTimeAt c) s).sound ?_
  refine Sound.trans (judgeSample_sound c l _) ?_
  exact Kept.sound (.of_eq rfl rfl rfl rfl rfl rfl rfl rfl rfl)

theorem runSample_sound (c : Nat) (s : State) (hr : s.inRun = true) : Sound s (runSample c s).1 := by
  unfold runSample
  dsimp only
  split
  · exact runEnd_sound _ s hr
  · exact ((beginSample_kept _ s hr).sound.trans (computeSample_kept _ _).sound).trans (judgeSampleEvents_sound c _ _)

theorem runElapsed_sound (n c : Nat) (s : State) (hr : s.inRun = true) : Sound s (runElapsed n c s) := by
  induction n generalizing c s with
  | zero => exact Kept.sound (.of_eq rfl rfl rfl rfl rfl rfl rfl rfl rfl)
  | succ n ih =>
    unfold runElapsed
    dsimp only
    refine Sound.trans (runSample_sound c s hr) ?_
    split
    · rename_i h; exact ih _ _ h
    · exact Kept.sound (.of_eq rfl rfl rfl rfl rfl rfl rfl rfl rfl)

/-! ### Run start -/

theorem startBreaker_quiet (s : State) : Quiet s (startBreaker s) := ⟨rfl, rfl, rfl, rfl, rfl, rfl, rfl, rfl, rfl⟩

/-- The state in which the RUN_START record is offered. -/
theorem startBlocks_spec (r : RunSettings) (t0 : Nat) (s : State) :
    let u := startBlocks r (latchRun t0 (newRun r s))
    Quiet s u ∧ u.rs = s.rs ∧ u.tb.latch.isSome = true ∧ u.bs.active = true ∧ u.sq.settings = s.sq.settings ∧
      u.sq.state = s.sq.state :=
  ⟨⟨rfl, rfl, rfl, rfl, rfl, rfl, rfl, rfl, rfl⟩, rfl, rfl, rfl, rfl, rfl⟩

/-- R152: the state in which the first state is entered: the run is in progress, and coherent if the store had 2
free places. -/
theorem startRun_entered (r : RunSettings) (t0 : Nat) (internal : Bool) (s : State) (hs : s.sq.settings = some r) :
    let s1 := startBlocks r (latchRun t0 (newRun r s))
    let s2 := offer s1.sq.runNumber 0 (runStartBody r internal s1) s1
    let s3 : State := { s2 with sq := { s2.sq with state := .running, resultHeld := false } }
    Quiet s s3 ∧ s3.inRun = true ∧ (s.rs.ordered → s.fill ≤ 638 → runCoherent s3) := by
  intro s1 s2 s3
  have h1 := startBlocks_spec r t0 s
  have hq : Quiet s1 s2 := offer_quiet _ _ _ s1
  refine ⟨?_, inRun_of_running rfl, fun ho hl => ?_⟩
  · exact (h1.1.trans hq).trans ⟨rfl, rfl, rfl, rfl, rfl, rfl, rfl, rfl, rfl⟩
  · have hrun : s3.inRun = true := inRun_of_running rfl
    have hst := offer_store s1.sq.runNumber 0 (runStartBody r internal s1) s1
    have hof := offer_runStart (run := s1.sq.runNumber) (time := 0) (body := runStartBody r internal s1) (rs := s1.rs)
      (by rw [h1.2.1]; exact ho) (by rw [h1.2.1]; exact hl) ⟨_, _, _, _, _, _, _, rfl⟩
    refine ⟨hst.1.2 hof.1, ?_, ?_, ?_, ?_⟩
    · have : s3.rs.window = s2.rs.window := rfl
      rw [this, hrun, hst.2]; exact hof.2
    · have : s3.tb = s1.tb := offer_tb _ _ _ s1
      rw [this, hrun]; exact h1.2.2.1
    · have : s3.bs = s1.bs := offer_bs _ _ _ s1
      rw [this, hrun]; exact h1.2.2.2.1
    · have : s3.sq.settings = s1.sq.settings := by
        change s2.sq.settings = _
        rw [show s2.sq = s1.sq from offer_sq _ _ _ s1]
      rw [this, h1.2.2.2.2.1, hs]
      simp [s3]

theorem startRun_quiet (t0 : Nat) (internal : Bool) (s : State) : Quiet s (startRun t0 internal s) := by
  unfold startRun
  split
  · exact .refl s
  · rename_i r hs
    have h := startRun_entered r t0 internal s hs
    exact (h.1.trans (enterState_kept _ _ _ h.2.1).quiet).trans
      (runElapsed_sound _ _ _ ((enterState_kept _ _ _ h.2.1).inRun.trans h.2.1)).quiet

/-- R152: a run started with 2 free places is coherent, whatever stood before it. -/
theorem startRun_coherent (t0 : Nat) (internal : Bool) (s : State) (hs : s.sq.settings.isSome) (ho : s.rs.ordered)
    (hl : s.fill ≤ 638) : runCoherent (startRun t0 internal s) := by
  unfold startRun
  split
  · rename_i h; simp [h] at hs
  · rename_i r h
    have k := startRun_entered r t0 internal s h
    exact (runElapsed_sound _ _ _ ((enterState_kept _ _ _ k.2.1).inRun.trans k.2.1)).coherent
      ((enterState_kept _ _ _ k.2.1).sound.coherent (k.2.2 ho hl))

theorem fill_of_freePlaces {s : State} (h : 2 ≤ s.freePlaces) : s.fill ≤ 638 := by
  unfold State.freePlaces at h; omega

theorem startRun_sound (t0 : Nat) (internal : Bool) (s : State) (hl : 2 ≤ s.freePlaces) :
    Sound s (startRun t0 internal s) := by
  refine ⟨startRun_quiet _ _ s, fun hc => ?_⟩
  by_cases hs : s.sq.settings.isSome = true
  · exact startRun_coherent _ _ s hs hc.1 (fill_of_freePlaces hl)
  · unfold startRun
    split
    · exact hc
    · rename_i h; simp [h] at hs

theorem tryStart_sound (t0 : Nat) (internal : Bool) (s : State) (hr : s.inRun = false) :
    Sound s (tryStart t0 internal s) := by
  unfold tryStart
  split
  · rename_i h; exact startRun_sound _ _ s h
  · exact endWait_sound s hr

theorem notRun_of_armed {s : State} (h : s.sq.state = .armed) : s.inRun = false := by
  unfold State.inRun; rw [h]; rfl

theorem notRun_of_gap {s : State} (h : s.sq.state = .gap) : s.inRun = false := by
  unfold State.inRun; rw [h]; rfl

theorem notRun_of_idle {s : State} (h : s.sq.state = .idle) : s.inRun = false := by
  unfold State.inRun; rw [h]; rfl

theorem handMark_sound (c : Nat) (i : Bool) (s : State) : Sound s (handMark c i s) := by
  unfold handMark
  split
  · rename_i h _
    have hr := notRun_of_armed h
    repeat' split
    all_goals first
      | with_reducible exact .refl s
      | exact tryStart_sound _ _ s hr
      | exact endWait_sound s hr
  · exact .refl s

theorem handSync_sound (c t : Nat) (s : State) : Sound s (handSync c t s) := by
  unfold handSync
  split
  · rename_i h
    have hr := notRun_of_armed h
    repeat' split
    all_goals first
      | with_reducible exact .refl s
      | exact tryStart_sound _ _ s hr
  · exact judgeEvent_sound _ _ s
  · exact .refl s
  · exact .refl s
  · exact .refl s

theorem groupLeftReady_sound (s : State) : Sound s (groupLeftReady s) := by
  unfold groupLeftReady
  split
  · rename_i h; exact runEnd_sound _ s (inRun_of_running h)
  · rename_i h; exact runEnd_sound _ s (inRun_of_pointing h)
  · rename_i h; exact endWait_sound s (notRun_of_armed h)
  · rename_i h; exact endWait_sound s (notRun_of_gap h)
  · exact .refl s

theorem handOverload_sound (s : State) : Sound s (handOverload s) := by
  unfold handOverload
  split
  · rename_i h
    repeat' split
    all_goals first | with_reducible exact .refl s | exact runEnd_sound _ s h
  · exact .refl s

end Sys2Proof.Machine
end

