-- ==== Sys2Proof/Laws/Blocks.lean ====
section
/-! SUPPORT. The amplifier link, the contact inputs, the time base and the owners' requests in the relations of
Laws/Frames.lean. -/

namespace Sys2Proof.Machine

/-! ### Amplifier link -/

theorem putGroup_kept (g : Group) (x : AmpGroup) (s : State) : Kept s (putGroup g x s) :=
  .of_eq rfl rfl rfl rfl rfl rfl rfl rfl rfl

theorem enterFault_sound (g : Group) (c : AmpEvent) (s : State) : Sound s (enterFault g c s) := by
  have h (u : State) : Kept s u → Sound s (raiseNotice .ampFault (offerAt u.count (.amp g c none) u)) := fun k =>
    ((k.trans (offerAt_kept _ (by rfl) u)).trans (raiseNotice_kept _ _)).sound
  unfold enterFault
  dsimp only
  split
  · exact (h _ (putGroup_kept g _ s)).trans (groupLeftReady_sound _)
  · exact h _ (putGroup_kept g _ s)

theorem settleMissed_sound (g : Group) (s : State) : Sound s (settleMissed g s) := by
  unfold settleMissed
  dsimp only
  split
  · split
    · exact (putGroup_kept g _ s).sound.trans (enterFault_sound _ _ _)
    · exact (putGroup_kept g _ s).sound
  · with_reducible exact .refl _

theorem sendFrame_kept (g : Group) (c : Vector Int 8) (s : State) : Kept s (sendFrame g c s) := by
  unfold sendFrame
  dsimp only
  split
  · exact putGroup_kept _ _ s
  · with_reducible exact .refl s

theorem frameInstant_sound (g : Group) (c : Vector Int 8) (s : State) : Sound s (frameInstant g c s) :=
  (settleMissed_sound g s).trans (sendFrame_kept g c _).sound

theorem applyOverload_sound (g : Group) (f : Byte) (s : State) (k : Fin 4) : Sound s (applyOverload g f s k) := by
  unfold applyOverload
  dsimp only
  split
  · refine Sound.trans ?_ (handOverload_sound _)
    exact ((putGroup_kept g _ s).trans (offerAt_kept _ (by rfl) _)).sound
  · exact (putGroup_kept g _ s).sound

theorem acknowledge_sound (g : Group) (n f : Byte) (c : Half) (s : State) : Sound s (acknowledge g n f c s) := by
  unfold acknowledge
  dsimp only
  split
  · split
    · exact (putGroup_kept g _ s).sound.trans (enterFault_sound _ _ _)
    · exact (putGroup_kept g _ s).sound.trans (.fold (fun s k => applyOverload_sound g f s k) _ _)
  · with_reducible exact .refl _

theorem receiveAckByte_sound (g : Group) (b : Byte) (s : State) : Sound s (receiveAckByte g b s) := by
  unfold receiveAckByte
  dsimp only
  split
  · split
    · exact (putGroup_kept g _ s).sound
    · with_reducible exact .refl _
  · exact (putGroup_kept g _ s).sound.trans (acknowledge_sound _ _ _ _ _)
  · exact (putGroup_kept g _ s).sound

theorem takeGrid_kept (s : State) : Kept s (takeGrid s) := .of_eq rfl rfl rfl rfl rfl rfl rfl rfl rfl

theorem gridSample_sound (s : State) : Sound s (gridSample s).1 := by
  unfold gridSample
  split
  · rename_i h; exact runSample_sound _ s h
  · exact .refl s

theorem gridInstant_sound (s : State) : Sound s (gridInstant s) := by
  unfold gridInstant
  refine Sound.trans (takeGrid_kept s).sound ?_
  refine Sound.trans (gridSample_sound _) ?_
  dsimp only
  refine Sound.trans ?_ (frameInstant_sound .i _ _)
  refine Sound.trans ?_ (frameInstant_sound .v _ _)
  exact Kept.sound (.of_eq rfl rfl rfl rfl rfl rfl rfl rfl rfl)

/-! ### Contact inputs -/

theorem commandTrip_sound (l : List Pole) (te : Nat) (s : State) : Sound s (commandTrip l te s) := by
  unfold commandTrip
  dsimp only
  refine Sound.trans (tripPoles_kept l te s).sound ?_
  refine Sound.trans (refreshOutputs_kept true _).sound ?_
  exact handCommandEvents_sound _ _ _ _

theorem commandClose_sound (te : Nat) (s : State) : Sound s (commandClose te s) := by
  unfold commandClose
  dsimp only
  refine Sound.trans (closeBreaker_kept te s).sound ?_
  refine Sound.trans (refreshOutputs_kept true _).sound ?_
  exact handCommandEvents_sound _ _ _ _

theorem commandEdge_sound (r : Role) (te : Nat) (s : State) : Sound s (commandEdge r te s) := by
  cases r
  · exact .refl s
  · exact commandTrip_sound _ te s
  · exact commandTrip_sound _ te s
  · exact commandTrip_sound _ te s
  · exact commandTrip_sound _ te s
  · exact commandClose_sound te s

theorem consumeEdge_sound (n : Fin 13) (r : Role) (d : Direction) (te : Nat) (s : State) (x : Consumer) :
    Sound s (consumeEdge n r d te s x) := by
  unfold consumeEdge
  split
  · split
    · split
      · exact commandEdge_sound r te s
      · with_reducible exact .refl _
    · exact (assessEvent_kept _ _ _ s).sound
    · exact sequenceEdge_sound _ _ _ s
  · with_reducible exact .refl _

theorem deliverInOrder_sound (o : Fin 6) (n : Fin 13) (r : Role) (d : Direction) (te : Nat) (s : State) :
    Sound s (deliverInOrder o n r d te s) :=
  .fold (fun s x => consumeEdge_sound n r d te s x) _ s

theorem deliverEdge_sound (n : Fin 13) (r : Role) (d : Direction) (te : Nat) (s : State) :
    Sound s (deliverEdge n r d te s) := by
  unfold deliverEdge
  split
  · refine Sound.trans (t := { s with free := s.free + 1 }) ?_ (deliverInOrder_sound _ _ _ _ _ _)
    exact Kept.sound (.of_eq rfl rfl rfl rfl rfl rfl rfl rfl rfl)
  · with_reducible exact .refl _

theorem takeContactSample_kept (c : BitVec 12) (y : Bool) (s : State) : Kept s (takeContactSample c y s) :=
  .of_eq rfl rfl rfl rfl rfl rfl rfl rfl rfl

theorem qualifyInput_sound (k : Fin 12) (s : State) : Sound s (qualifyInput k s) := by
  unfold qualifyInput
  dsimp only
  split
  · split
    · split
      · split
        · refine Sound.trans ?_ (writePending_kept _ _ _).sound
          exact (putInput_kept k _ s).sound.trans (deliverEdge_sound _ _ _ _ _)
        · exact (putInput_kept k _ s).sound.trans (deliverEdge_sound _ _ _ _ _)
      · exact (putInput_kept k _ s).sound
    · with_reducible exact .refl _
  · with_reducible exact .refl _
  · with_reducible exact .refl _

theorem endWindow_sound (k : Fin 12) (s : State) : Sound s (endWindow k s) := by
  unfold endWindow
  refine Sound.trans (putInput_kept k (countLastBounce s.ci.inputs[k]) s).sound ?_
  refine Sound.trans (writePending_kept (putInput k (countLastBounce s.ci.inputs[k]) s).now _ k).sound ?_
  dsimp only
  split
  · exact (putInput_kept k _ _).sound
  · exact (putInput_kept k _ _).sound.trans (deliverEdge_sound _ _ _ _ _)

theorem injectEdge_sound (k : Fin 12) (b : Bool) (s : State) : Sound s (injectEdge k b s) := by
  unfold injectEdge
  dsimp only
  split
  · with_reducible exact .refl _
  · exact ((putInput_kept k _ s).sound.trans (deliverEdge_sound _ _ _ _ _)).trans (writePending_kept _ _ _).sound

theorem deliverSync_sound (c : Nat) (n : Bool) (g : Nat) (s : State) : Sound s (deliverSync c n g s) := by
  unfold deliverSync
  dsimp only
  refine Sound.trans ?_ (putSync_kept _ _).sound
  split
  · refine Sound.trans ?_ (writePendingSync_kept _ _).sound
    exact (putSync_kept _ s).sound.trans (handSync_sound _ _ _)
  · exact (putSync_kept _ s).sound.trans (handSync_sound _ _ _)

theorem qualifySync_sound (s : State) : Sound s (qualifySync s) := by
  unfold qualifySync
  dsimp only
  split
  · split
    · split
      · split
        · exact (putSync_kept _ s).sound
        · exact (putSync_kept _ s).sound.trans (deliverSync_sound _ _ _ _)
      · exact (putSync_kept _ s).sound
    · with_reducible exact .refl _
  · with_reducible exact .refl _
  · with_reducible exact .refl _

/-- R117: sample 0 comes first, or nothing happens. -/
theorem firstSampleFirst_cases (k : Fin 12) (active : Bool) (s : State) :
    (active = true ∧ s.ci.inputs[k].role ≠ .timing ∧ firstSampleDue s = true ∧
      firstSampleFirst k active s = gridInstant s) ∨ firstSampleFirst k active s = s := by
  unfold firstSampleFirst
  split
  · rename_i h
    simp only [Bool.and_eq_true, decide_eq_true_eq] at h
    exact .inl ⟨h.1.1, h.1.2, h.2, rfl⟩
  · exact .inr rfl

theorem firstSampleFirst_sound (k : Fin 12) (active : Bool) (s : State) : Sound s (firstSampleFirst k active s) := by
  obtain ⟨-, -, -, h⟩ | h := firstSampleFirst_cases k active s <;> rw [h]
  · exact gridInstant_sound s
  · exact .refl s

theorem qualify_sound (n : Fin 13) (s : State) : Sound s (qualify n s) := by
  unfold qualify
  split
  · exact (firstSampleFirst_sound _ _ s).trans (qualifyInput_sound _ _)
  · exact qualifySync_sound s

theorem windowEnd_sound (n : Fin 13) (s : State) : Sound s (windowEnd n s) := by
  unfold windowEnd
  split
  · split
    · exact (firstSampleFirst_sound _ _ s).trans (endWindow_sound _ _)
    · with_reducible exact .refl _
  · with_reducible exact .refl _

/-! ### Time base -/

/-- An update of the time base that leaves the run latch. -/
theorem putTb_kept (x : TimeBase) (s : State) (h : x.latch = s.tb.latch) : Kept s (putTb x s) :=
  .of_eq rfl rfl rfl rfl rfl rfl rfl h rfl

theorem timeRecord_kept (c : Nat) (e : TimeEvent) (x : Option Int) (n : Option Nat) (s : State) :
    Kept s (timeRecord c e x n s) := offerAt_kept _ rfl s

theorem timeEvent_kept (c : Nat) (e : TimeEvent) (x : Option Int) (n : Option Nat) (s : State) :
    Kept s (timeEvent c e x n s) := (timeRecord_kept c e x n s).trans (raiseNotice_kept _ _)

theorem endMark_sound (c : Nat) (i : Bool) (s : State) : Sound s (endMark c i s) :=
  (handMark_sound c i s).trans (putTb_kept _ _ (by rfl)).sound

theorem failCalibration_kept (c : Nat) (x : Calibration) (n : TbState) (s : State) :
    Kept s (failCalibration c x n s) := by
  unfold failCalibration
  dsimp only
  refine Kept.trans ?_ (raiseNotice_kept _ _)
  refine Kept.trans (t := timeRecord c .calFailed none none (putTb { s.tb with cal := none, state := n } s)) ?_ ?_
  · exact (putTb_kept _ s (by rfl)).trans (timeRecord_kept _ _ _ _ _)
  · split
    · exact timeRecord_kept _ _ _ _ _
    · with_reducible exact .refl _

theorem holdResult_kept (s : State) : Kept s (holdResult s) :=
  .of_eq rfl rfl rfl rfl rfl rfl rfl rfl rfl

theorem adoptResult_kept (c : Int) (s : State) : Kept s (adoptResult c s) := by
  unfold adoptResult
  split
  · exact putTb_kept _ s (by rfl)
  · exact (holdResult_kept s).trans (putTb_kept _ _ (by rfl))

theorem finishCalibration_kept (c : Nat) (x : Calibration) (o : Nat) (s : State) :
    Kept s (finishCalibration c x o s) := by
  unfold finishCalibration
  dsimp only
  split
  · exact ((putTb_kept _ s (by rfl)).trans (adoptResult_kept _ _)).trans (timeEvent_kept _ _ _ _ _)
  · exact (putTb_kept _ s (by rfl)).trans (timeEvent_kept _ _ _ _ _)

theorem calibrationPulse_kept (c : Nat) (x : Calibration) (s : State) : Kept s (calibrationPulse c x s) := by
  unfold calibrationPulse
  split
  · exact putTb_kept _ s (by rfl)
  · split
    · exact finishCalibration_kept _ _ _ s
    · exact putTb_kept _ s (by rfl)

theorem calibrationRealign_kept (c : Nat) (x : Calibration) (s : State) : Kept s (calibrationRealign c x s) := by
  unfold calibrationRealign
  split
  · exact calibrationPulse_kept _ _ s
  · exact failCalibration_kept _ _ _ s

theorem acceptPulse_kept (c n : Nat) (s : State) : Kept s (acceptPulse c n s) := by
  unfold acceptPulse
  refine Kept.trans (putTb_kept (s.tb.pulse c n) s (by rfl)) ?_
  dsimp only
  split
  · exact calibrationPulse_kept _ _ _
  · split
    · exact (putTb_kept _ _ (by rfl)).trans (timeEvent_kept _ _ _ _ _)
    · with_reducible exact .refl _
  · with_reducible exact .refl _

theorem rejectEdge_kept (s : State) : Kept s (rejectEdge s) := by
  unfold rejectEdge
  refine Kept.trans (putTb_kept { s.tb with pulseRun := 0 } s (by rfl)) ?_
  dsimp only
  split
  · exact failCalibration_kept _ _ _ _
  · with_reducible exact .refl _

theorem realignMark_kept (c n : Nat) (s : State) : Kept s (realignMark c n s) := by
  unfold realignMark
  refine Kept.trans (putTb_kept (s.tb.realign c n) s (by rfl)) ?_
  dsimp only
  split
  · exact calibrationRealign_kept _ _ _
  · with_reducible exact .refl _

theorem armedEdge_sound (n : Nat) (s : State) : Sound s (armedEdge n s) := by
  unfold armedEdge
  dsimp only
  refine Sound.trans ?_ (endMark_sound _ _ _)
  refine Sound.trans (t := timeEvent s.count .epochSet none (some n)
    (putTb { s.tb with second := n, epoch := true, armedSecond := none, prevMark := some s.count } s)) ?_ ?_
  · exact ((putTb_kept _ s (by rfl)).trans (timeEvent_kept _ _ _ _ _)).sound
  · split
    · exact (acceptPulse_kept _ _ _).sound
    · exact (realignMark_kept _ _ _).sound

theorem ppsEdge_sound (s : State) : Sound s (ppsEdge s) := by
  unfold ppsEdge
  split
  · exact armedEdge_sound _ s
  · split
    · exact (acceptPulse_kept _ _ s).sound.trans (endMark_sound _ _ _)
    · exact (rejectEdge_kept s).sound

theorem placeInternal_kept (m : Nat) (s : State) : Kept s (placeInternal m s) := by
  unfold placeInternal
  refine Kept.trans (putTb_kept (s.tb.internal m) s (by rfl)) ?_
  dsimp only
  split
  · exact failCalibration_kept _ _ _ _
  · split
    · exact (putTb_kept _ _ (by rfl)).trans (timeEvent_kept _ _ _ _ _)
    · with_reducible exact .refl _
  · with_reducible exact .refl _

theorem internalMark_sound (s : State) : Sound s (internalMark s) := by
  unfold internalMark
  split
  · exact (placeInternal_kept _ s).sound.trans (endMark_sound _ _ _)
  · with_reducible exact .refl _

/-! ### Requests -/

theorem gapEnd_sound {s : State} (h : s.sq.state = .gap) : Sound s (gapEnd s) := by
  unfold gapEnd
  split
  · rename_i hp; exact startRun_sound _ _ s hp.1
  · exact endWait_sound s (notRun_of_gap h)

/-- R146, R147: a RUN that passes its checks. -/
theorem acceptRun_sound (r : RunSettings) (s : State) (h : runRefusal r s = none) : Sound s (acceptRun r s) := by
  unfold runRefusal at h
  by_cases hi : s.sq.state = .idle
  · simp only [hi, ne_eq, not_true_eq_false, if_false] at h
    have hp : 2 ≤ s.freePlaces := by
      by_cases hb : bothReady s = false
      · simp [hb] at h
      · by_cases he : (s.st.entries[r.first]).isNone = true
        · simp [hb] at h; simp_all
        · by_cases hp : s.freePlaces < 2
          · simp [hb] at h; simp_all
          · omega
    unfold acceptRun
    dsimp only
    split
    · refine ⟨Quiet.trans (t := { s with sq := { s.sq with
          settings := some r, remainder := initialRemainder r, resultHeld := false } })
        ⟨rfl, rfl, rfl, rfl, rfl, rfl, rfl, rfl, rfl⟩ (startRun_quiet _ _ _), fun hc => ?_⟩
      exact startRun_coherent _ _ _ rfl hc.1 (fill_of_freePlaces hp)
    · have hr : s.inRun = false := notRun_of_idle hi
      refine ⟨⟨rfl, rfl, rfl, rfl, rfl, rfl, rfl, rfl, rfl⟩, fun ⟨h1, h2, h3, h4, _⟩ => ?_⟩
      refine ⟨h1, ?_, ?_, ?_, by simp⟩
      · exact h2.trans hr
      · exact h3.trans hr
      · exact h4.trans hr
  · simp [hi] at h

theorem takeReport_kept (m : Nat) (s : State) : Kept s (takeReport m s) :=
  ⟨⟨rfl, rfl, rfl, rfl, rfl, rfl, rfl, rfl, rfl⟩, rfl, .rfl, rfl, rfl, rfl, rfl, takeOldest_ordered⟩

theorem setChannel_kept (ch : Fin 8) (x : ChannelSettings) (b : Bool) (s : State) : Kept s (setChannel ch x b s) :=
  .of_eq rfl rfl rfl rfl rfl rfl rfl rfl rfl

theorem setBreaker_kept (x : BreakerSettings) (s : State) : Kept s (setBreaker x s) :=
  .of_eq rfl rfl rfl rfl rfl rfl rfl rfl rfl

theorem setOutput_kept (k : Fin 8) (x : OutSource) (b : Fin 8) (s : State) : Kept s (setOutput k x b s) :=
  .of_eq rfl rfl rfl rfl rfl rfl rfl rfl rfl

theorem putEntry_kept (n : Fin 24) (e : Option Entry) (s : State) : Kept s (putEntry n e s) :=
  .of_eq rfl rfl rfl rfl rfl rfl rfl rfl rfl

theorem setSource_kept (c : Fin 4) (x : CounterSource) (s : State) : Kept s (setSource c x s) :=
  .of_eq rfl rfl rfl rfl rfl rfl rfl rfl rfl

theorem requestHalt_sound (s : State) : Sound s (requestHalt s).2 := by
  unfold requestHalt
  split
  · exact .refl s
  · rename_i h; exact toIdle_sound s (notRun_of_armed h)
  · rename_i h; exact toIdle_sound s (notRun_of_gap h)
  · rename_i h; show Sound s (runEnd .halted s); exact runEnd_sound _ s (inRun_of_running h)
  · rename_i h; show Sound s (runEnd .halted s); exact runEnd_sound _ s (inRun_of_pointing h)

theorem requestGo_sound (s : State) : Sound s (requestGo s).2 := by
  unfold requestGo
  split
  · exact .refl s
  · exact .refl s
  · exact .refl s
  · rename_i h
    split
    · exact .refl s
    · split
      · rename_i hp; exact startRun_sound _ _ s hp
      · exact endWait_sound s (notRun_of_armed h)
  · exact judgeEvent_sound _ _ s

theorem requestRun_sound (m : Byte) (n : Half) (g : Word) (t : Byte) (w : Word) (f : Byte) (q : Word) (a : Byte)
    (s : State) : Sound s (requestRun m n g t w f q a s).2 := by
  unfold requestRun
  split
  · split
    · exact .refl s
    · dsimp only
      split
      · exact .refl s
      · rename_i h; exact acceptRun_sound _ s h
  · exact .refl s

theorem requestChanset_sound (ch : Byte) (l g o : Half) (m : Byte) (s : State) :
    Sound s (requestChanset ch l g o m s).2 := by
  unfold requestChanset
  split
  · exact .refl s
  · split
    · exact .refl s
    · split
      · exact .refl s
      · split
        · exact .refl s
        · exact (setChannel_kept _ _ _ s).sound

theorem requestInset_sound (n m p r : Byte) (w : Half) (s : State) :
    Sound s (requestInset n m p r w s).2 := by
  unfold requestInset
  split
  · exact .refl s
  · split
    · split
      · exact .refl s
      · exact (putInput_kept _ _ s).sound
    · exact .refl s

theorem requestInject_sound (n l : Byte) (s : State) :
    Sound s (requestInject n l s).2 := by
  unfold requestInject
  split
  · exact .refl s
  · split
    · exact .refl s
    · split
      · exact .refl s
      · exact (firstSampleFirst_sound _ _ s).trans (injectEdge_sound _ _ _)

theorem requestAmpon_sound (g : Byte) (s : State) :
    Sound s (requestAmpon g s).2 := by
  unfold requestAmpon
  split
  · exact .refl s
  · exact (putGroup_kept _ _ s).sound

theorem requestAmpoff_sound (g : Byte) (s : State) :
    Sound s (requestAmpoff g s).2 := by
  unfold requestAmpoff
  split
  · exact .refl s
  · split
    · exact .refl s
    · exact (putGroup_kept _ _ s).sound

theorem requestBrkset_sound (a b c d e f g : Word) (h : Byte) (i : Half) (j k l m : Byte) (s : State) :
    Sound s (requestBrkset a b c d e f g h i j k l m s).2 := by
  unfold requestBrkset
  split
  · split
    · exact .refl s
    · exact (setBreaker_kept _ s).sound
  · exact .refl s

theorem requestOutset_sound (n x b : Byte) (s : State) :
    Sound s (requestOutset n x b s).2 := by
  unfold requestOutset
  split
  · exact .refl s
  · split
    · exact .refl s
    · split
      · exact .refl s
      · split
        · exact .refl s
        · exact (setOutput_kept _ _ _ s).sound

theorem requestStwrite_sound (b : List Byte) (s : State) :
    Sound s (requestStwrite b s).2 := by
  unfold requestStwrite
  split
  · exact .refl s
  · split
    · exact .refl s
    · split
      · exact .refl s
      · exact (putEntry_kept _ _ s).sound

theorem requestStread_sound (n : Byte) (s : State) :
    Sound s (requestStread n s).2 := by
  unfold requestStread
  split
  · exact .refl s
  · split <;> exact .refl s

theorem requestStclear_sound (n : Byte) (s : State) :
    Sound s (requestStclear n s).2 := by
  unfold requestStclear
  split
  · exact .refl s
  · split
    · exact .refl s
    · exact (putEntry_kept _ _ s).sound

theorem requestCntset_sound (c x p : Byte) (s : State) :
    Sound s (requestCntset c x p s).2 := by
  unfold requestCntset
  split
  · exact .refl s
  · split
    · exact .refl s
    · split
      · exact .refl s
      · exact (setSource_kept _ _ s).sound

theorem requestTcalx_sound (s : State) :
    Sound s (requestTcalx s).2 := by
  unfold requestTcalx
  split
  · exact (putTb_kept _ s (by rfl)).sound
  · exact .refl s

/-- R6: a request carried out keeps the run coherent and leaves the control link's slots. -/
theorem carryOut_sound (r : Request) (s : State) : Sound s (carryOut r s).2 := by
  cases r with
  | ident => exact .refl s
  | status => exact .refl s
  | reset => exact .refl s
  | chanset ch l g o m => exact requestChanset_sound ch l g o m s
  | inset n m p r w => exact requestInset_sound n m p r w s
  | inject n l => exact requestInject_sound n l s
  | ampon g => exact requestAmpon_sound g s
  | ampoff g => exact requestAmpoff_sound g s
  | brkset a b c d e f g h i j k l m => exact requestBrkset_sound a b c d e f g h i j k l m s
  | outset n x b => exact requestOutset_sound n x b s
  | stwrite b => exact requestStwrite_sound b s
  | stread n => exact requestStread_sound n s
  | stclear n => exact requestStclear_sound n s
  | cntset c x p => exact requestCntset_sound c x p s
  | run m n g t w f q a => exact requestRun_sound m n g t w f q a s
  | halt => exact requestHalt_sound s
  | go => exact requestGo_sound s
  | tcal k => exact (putTb_kept _ s (by rfl)).sound
  | tcalx => exact requestTcalx_sound s
  | tsec n => exact (putTb_kept _ s (by rfl)).sound
  | repread n => exact (takeReport_kept _ s).sound
  | unknownKind k => exact .refl s
  | wrongLength k => exact .refl s

end Sys2Proof.Machine
end

