-- ==== Sys2Proof/Laws/Layout.lean ====
section
/-! SUPPORT. The byte layouts: little-endian fields and bit sets, field by field, and the 37 bytes of a snapshot in one
list. -/

namespace Sys2Proof.Machine

/-! ### Fields and bit sets -/

theorem leBytes_length (k n : Nat) : (leBytes k n).length = k := by
  induction k generalizing n with
  | zero => rfl
  | succ k ih => simp [leBytes, ih]

theorem leSigned_length (k : Nat) (z : Int) : (leSigned k z).length = k := leBytes_length ..

theorem leBytes_two (n : Nat) : leBytes 2 n = [BitVec.ofNat 8 n, BitVec.ofNat 8 (n / 256)] := rfl

theorem leBytes_four (n : Nat) :
    leBytes 4 n =
      [BitVec.ofNat 8 n, BitVec.ofNat 8 (n / 256), BitVec.ofNat 8 (n / 256 / 256), BitVec.ofNat 8 (n / 256 / 256 / 256)] :=
  rfl

theorem leSigned_four (z : Int) : leSigned 4 z = leBytes 4 (BitVec.ofInt 32 z).toNat := rfl

theorem bitsOf_lt (n : Nat) (f : Nat → Bool) : bitsOf n f < 2 ^ n := by
  induction n with
  | zero => simp [bitsOf]
  | succ n ih => simp only [bitsOf]; split <;> omega

theorem bitsOf_testBit (n : Nat) (f : Nat → Bool) (k : Nat) : (bitsOf n f).testBit k = (decide (k < n) && f k) := by
  induction n with
  | zero => simp [bitsOf]
  | succ n ih =>
    have h := bitsOf_lt n f
    simp only [bitsOf]
    split
    · rw [Nat.add_comm]
      by_cases hk : k = n
      · subst hk; rw [Nat.testBit_two_pow_add_eq, ih]; simp_all
      · by_cases hlt : k < n
        · rw [Nat.testBit_two_pow_add_gt (by omega), ih]; simp [hlt]; omega
        · have h2 : 2 ^ n + bitsOf n f < 2 ^ k :=
            lt_of_lt_of_le (by omega : _ < 2 ^ (n + 1)) (Nat.pow_le_pow_right (by omega) (by omega))
          rw [Nat.testBit_lt_two_pow h2]; simp; omega
    · rw [Nat.add_zero, ih]
      by_cases hk : k = n
      · subst hk; simp_all
      · have : (k < n) = (k < n + 1) := by apply propext; omega
        simp [this]

/-! ### The snapshot -/

/-- The 37 bytes of a snapshot in one list, so that a field is read off without unfolding the layout. -/
theorem Snapshot.bytes_eq (state : SeqState) (number : Nat) (current target : Option (Fin 24))
    (outcome : Option RunOutcome) (a b c : PositionName) (spring : Bool) (marks levels : BitVec 16)
    (c0 c1 c2 c3 : Nat) (h : #[c0, c1, c2, c3].size = 4) (outputs : BitVec 8) (tb : TbState) (z : Int)
    (pending : Option Int) (second : Nat) (epoch : Bool) (v i : GroupState) (fill : Nat) :
    Snapshot.bytes ⟨state, number, current, target, outcome, ⟨a, b, c⟩, spring, marks, ⟨#[c0, c1, c2, c3], h⟩, levels,
        outputs, tb, z, pending, second, epoch, ⟨v, i⟩, fill⟩ =
      [BitVec.ofNat 8 state.code, BitVec.ofNat 8 number, BitVec.ofNat 8 (number / 256),
        BitVec.ofNat 8 (stateIndexCode current), BitVec.ofNat 8 (stateIndexCode target),
        BitVec.ofNat 8 (outcome.elim 0 (·.code + 1)), BitVec.ofNat 8 a.code, BitVec.ofNat 8 b.code,
        BitVec.ofNat 8 c.code, BitVec.ofNat 8 (boolCode (!spring)), BitVec.ofNat 8 marks.toNat,
        BitVec.ofNat 8 (marks.toNat / 256), BitVec.ofNat 8 c0, BitVec.ofNat 8 c1, BitVec.ofNat 8 c2,
        BitVec.ofNat 8 c3, BitVec.ofNat 8 levels.toNat, BitVec.ofNat 8 (levels.toNat / 256), outputs,
        BitVec.ofNat 8 tb.code] ++ leSigned 4 z ++
      [BitVec.ofNat 8 (boolCode pending.isSome + 2 * boolCode epoch)] ++ leSigned 4 (pending.getD 0) ++
        leBytes 4 second ++ [BitVec.ofNat 8 v.code, BitVec.ofNat 8 i.code] ++ leBytes 2 fill := by
  unfold Snapshot.bytes
  simp only [byteOf, leBytes_two, leBytes_four, leSigned_four]
  simp only [Vector.toList, List.cons_append, List.nil_append, List.map]
  cases outcome <;> rfl

end Sys2Proof.Machine
end

