-- ==== Sys2Proof/Laws/Link.lean ====
section
/-! SUPPORT. The control link: what the request slot, the receiver, the arbiter and the end of a frame do to the
run and to the slots. -/

namespace Sys2Proof.Machine

/-! ### The run -/

/-- Whether the run is coherent does not depend on the control link. -/
theorem coherent_of_parts {s t : State} (h1 : t.sq = s.sq) (h2 : t.rs = s.rs) (h3 : t.tb = s.tb) (h4 : t.bs = s.bs)
    (h : runCoherent s) : runCoherent t := by
  have hr : t.inRun = s.inRun := by unfold State.inRun; rw [h1]
  obtain ⟨a, b, c, d, e⟩ := h
  exact ⟨by rw [h2]; exact a, by rw [h2, hr]; exact b, by rw [h3, hr]; exact c, by rw [h4, hr]; exact d,
    by rw [h1]; exact e⟩

theorem putCl_coherent (x : ControlLink) {s : State} (h : runCoherent s) : runCoherent (putCl x s) :=
  coherent_of_parts rfl rfl rfl rfl h

theorem serve_coherent (q : HeldRequest) {s : State} (h : runCoherent s) : runCoherent (serve q s) :=
  putCl_coherent _ ((carryOut_sound q.request _).coherent (putCl_coherent _ h))

theorem submit_coherent (q : HeldRequest) {s : State} (h : runCoherent s) : runCoherent (submit q s) := by
  unfold submit
  split
  · exact serve_coherent q h
  · split
    · exact putCl_coherent _ h
    · split
      · exact putCl_coherent _ h
      · exact h

theorem requestResetNow_coherent (s : State) : runCoherent (requestResetNow s) := by
  refine ⟨⟨by simp [requestResetNow, ReportStore.reset], by simp [requestResetNow, ReportStore.reset],
    by simp [requestResetNow, ReportStore.reset], by simp [requestResetNow, ReportStore.reset]⟩, rfl, rfl, rfl, ?_⟩
  simp [requestResetNow, Sequencer.reset]

theorem hardwareReset_coherent (b : Bool) (s : State) : runCoherent (hardwareReset b s) := by
  refine ⟨⟨by simp [hardwareReset, State.reset, ReportStore.reset], by simp [hardwareReset, State.reset, ReportStore.reset],
    by simp [hardwareReset, State.reset, ReportStore.reset], by simp [hardwareReset, State.reset, ReportStore.reset]⟩,
    rfl, rfl, rfl, ?_⟩
  simp [hardwareReset, State.reset, Sequencer.reset]

theorem receiveByte_coherent (b : Byte) {s : State} (h : runCoherent s) : runCoherent (receiveByte b s) := by
  unfold receiveByte
  repeat' split
  all_goals first
    | with_reducible exact h
    | exact submit_coherent _ (putCl_coherent _ h)
    | exact putCl_coherent _ h

theorem receiveLineByte_coherent (c : Nat) (b : Byte) (v : Bool) {s : State} (h : runCoherent s) :
    runCoherent (receiveLineByte c b v s) := by
  unfold receiveLineByte
  refine putCl_coherent _ ?_
  have h1 : runCoherent (if gapPassed c s.cl then putReceiver .hunt s else s) := by
    split
    · exact putCl_coherent _ h
    · exact h
  split
  · exact receiveByte_coherent b h1
  · exact putCl_coherent _ h1

theorem receiveFrame_coherent (k t : Byte) (b : List Byte) {s : State} (h : runCoherent s) :
    runCoherent (receiveFrame k t b s) := by
  unfold receiveFrame
  dsimp only
  split
  · exact submit_coherent _ (putCl_coherent _ h)
  · exact putCl_coherent _ h

theorem interByteGap_coherent {s : State} (h : runCoherent s) : runCoherent (interByteGap s) := by
  unfold interByteGap
  split
  · exact putCl_coherent _ h
  · exact h

theorem frameSent_coherent {s : State} (h : runCoherent s) : runCoherent (frameSent s) := by
  unfold frameSent
  split
  · exact h
  · dsimp only
    split
    · exact putCl_coherent _ h
    · split
      · split
        · exact requestResetNow_coherent _
        · unfold leaveService
          split
          · exact putCl_coherent _ (putCl_coherent _ h)
          · exact serve_coherent _ (putCl_coherent _ (putCl_coherent _ h))
      · exact putCl_coherent _ h

theorem arbitrate_parts (s : State) :
    (arbitrate s).sq = s.sq ∧ (arbitrate s).rs = s.rs ∧ (arbitrate s).tb = s.tb ∧ (arbitrate s).bs = s.bs := by
  unfold arbitrate
  repeat' split
  all_goals exact ⟨rfl, rfl, rfl, rfl⟩

/-- The end of a step touches the outputs and the outgoing line alone. -/
theorem settle_parts (s : State) :
    (settle s).sq = s.sq ∧ (settle s).rs = s.rs ∧ (settle s).tb = s.tb ∧ (settle s).bs = s.bs :=
  arbitrate_parts (refreshOutputs s.inRun s)

theorem settle_coherent {s : State} (h : runCoherent s) : runCoherent (settle s) :=
  coherent_of_parts (settle_parts s).1 (settle_parts s).2.1 (settle_parts s).2.2.1 (settle_parts s).2.2.2 h

/-! ### The slots -/

theorem slots_of_quiet {s t : State} (q : Quiet s t) (h : slotsCoherent s.cl) : slotsCoherent t.cl := by
  unfold slotsCoherent serviceAnswers at *
  rw [q.answers, q.line, q.inService, q.holding]
  exact h

/-- An update of the control link outside its slots. -/
theorem slots_of_eq {x y : ControlLink} (h1 : y.answers = x.answers) (h2 : y.line = x.line)
    (h3 : y.inService = x.inService) (h4 : y.holding = x.holding) (h : slotsCoherent x) : slotsCoherent y := by
  unfold slotsCoherent serviceAnswers at *
  rw [h1, h2, h3, h4]
  exact h

theorem overrun_and_service (l : List Answer) :
    overrunCount l + (l.filter (·.fromService)).length = l.length := by
  induction l with
  | nil => rfl
  | cons a l ih =>
    unfold overrunCount at *
    cases h : a.fromService <;> simp [h] <;> omega

/-- R4: a request taken when none is in service has its one answer queued. -/
theorem serve_slots (q : HeldRequest) {s : State} (hs : s.cl.inService = none) (h : slotsCoherent s.cl) :
    slotsCoherent (serve q s).cl := by
  have k := (carryOut_sound q.request (putCl { s.cl with inService := some q } s)).quiet
  obtain ⟨h1, h2, h3, h4⟩ := h
  rw [hs] at h1 h2
  unfold serve
  dsimp only
  rw [pushAnswer_cl]
  unfold slotsCoherent serviceAnswers at *
  dsimp only
  rw [k.answers, k.line, k.inService, k.holding]
  have ho := overrun_and_service s.cl.answers
  simp only [putCl_cl, List.filter_append, List.length_append]
  refine ⟨?_, fun _ => rfl, ?_, ?_⟩
  · simp only [serviceAnswer, List.filter_cons, List.filter_nil, if_true, List.length_cons, List.length_nil,
      Option.isSome_some]
    simp only [Option.isSome_none, Bool.false_eq_true, if_false] at h1
    omega
  · simpa [overrunCount, serviceAnswer] using h3
  · simp only [Option.isSome_none, Bool.false_eq_true, if_false] at h1
    simp only [List.length_cons, List.length_nil]
    omega

theorem overrun_slots (a : Answer) {s : State} (ha : a.fromService = false) (hs : s.cl.inService.isSome)
    (hn : overrunCount s.cl.answers < 8) (h : slotsCoherent s.cl) : slotsCoherent (pushAnswer a s).cl := by
  obtain ⟨h1, h2, h3, h4⟩ := h
  have ho := overrun_and_service s.cl.answers
  rw [pushAnswer_cl]
  unfold slotsCoherent serviceAnswers at *
  simp only [List.filter_append, List.length_append, overrunCount, List.filter_cons, ha, List.filter_nil] at *
  refine ⟨by simpa using h1, h2, ?_, ?_⟩
  · simp; omega
  · rw [if_pos hs] at h1
    simp; omega

theorem submit_slots (q : HeldRequest) {s : State} (h : slotsCoherent s.cl) : slotsCoherent (submit q s).cl := by
  unfold submit
  split
  · rename_i hs; exact serve_slots q hs h
  · rename_i x hs
    split
    · rename_i hh
      exact ⟨h.1, fun _ => by rw [putCl_cl]; simp [hs], h.2.2⟩
    · split
      · rename_i hn; exact overrun_slots _ rfl (by rw [hs]; rfl) hn h
      · exact h

theorem frameSent_slots {s : State} (h : slotsCoherent s.cl) : slotsCoherent (frameSent s).cl := by
  have hbase : ∀ x, s.cl.line = some x → (match x.frame with | .answer a => a.fromService | .notice _ => false) = false →
      slotsCoherent { s.cl with line := none } := by
    intro x hx hf
    obtain ⟨h1, h2, h3, h4⟩ := h
    refine ⟨?_, h2, h3, h4⟩
    unfold serviceAnswers at *
    rw [hx] at h1
    cases hfr : x.frame with
    | answer a => simp_all
    | notice n => simp_all
  unfold frameSent
  split
  · exact h
  · rename_i x hx
    dsimp only
    split
    · rename_i n hn; exact hbase x hx (by rw [hn])
    · rename_i a hn
      split
      · rename_i ha
        have hin : s.cl.inService.isSome = true ∧ slotsCoherent { s.cl with line := none, inService := none, holding := none } ∧
            (s.cl.holding = none → slotsCoherent { s.cl with line := none, inService := none }) := by
          obtain ⟨h1, h2, h3, h4⟩ := h
          unfold serviceAnswers at h1
          rw [hx] at h1
          dsimp only at h1
          rw [hn] at h1
          dsimp only at h1
          rw [if_pos ha] at h1
          have hi : s.cl.inService.isSome = true := by
            by_contra hc; rw [if_neg hc] at h1; omega
          rw [if_pos hi] at h1
          have hz : (s.cl.answers.filter (·.fromService)).length = 0 := by omega
          refine ⟨hi, ⟨?_, by simp, h3, h4⟩, fun hh => ⟨?_, by simp [hh], h3, h4⟩⟩
          · unfold serviceAnswers; simpa using hz
          · unfold serviceAnswers; simpa using hz
        split
        · refine ⟨by rfl, by simp [requestResetNow, ControlLink.reset], Nat.zero_le _, Nat.zero_le _⟩
        · unfold leaveService
          split
          · rename_i hh; exact hin.2.2 hh
          · exact serve_slots _ rfl hin.2.1
      · rename_i ha
        exact hbase x hx (by rw [hn]; simpa using ha)

theorem receiveByte_slots (b : Byte) {s : State} (h : slotsCoherent s.cl) : slotsCoherent (receiveByte b s).cl := by
  unfold receiveByte
  repeat' split
  all_goals first
    | with_reducible exact h
    | exact submit_slots _ (slots_of_eq rfl rfl rfl rfl h)
    | exact slots_of_eq rfl rfl rfl rfl h

theorem receiveLineByte_slots (c : Nat) (b : Byte) (v : Bool) {s : State} (h : slotsCoherent s.cl) :
    slotsCoherent (receiveLineByte c b v s).cl := by
  unfold receiveLineByte
  have h1 : slotsCoherent (if gapPassed c s.cl then putReceiver .hunt s else s).cl := by
    split
    · exact slots_of_eq rfl rfl rfl rfl h
    · exact h
  generalize (if gapPassed c s.cl then putReceiver .hunt s else s) = u at *
  cases v
  · exact slots_of_eq (x := u.cl) rfl rfl rfl rfl h1
  · exact slots_of_eq (x := (receiveByte b u).cl) rfl rfl rfl rfl (receiveByte_slots b h1)

theorem receiveFrame_slots (k t : Byte) (b : List Byte) {s : State} (h : slotsCoherent s.cl) :
    slotsCoherent (receiveFrame k t b s).cl := by
  unfold receiveFrame
  dsimp only
  split
  · exact submit_slots _ (slots_of_eq rfl rfl rfl rfl h)
  · exact slots_of_eq rfl rfl rfl rfl h

theorem interByteGap_slots {s : State} (h : slotsCoherent s.cl) : slotsCoherent (interByteGap s).cl := by
  unfold interByteGap
  split
  · exact slots_of_eq rfl rfl rfl rfl h
  · exact h

/-- R10: the arbiter moves an answer from the queue to the line. -/
theorem arbitrate_slots {s : State} (h : slotsCoherent s.cl) : slotsCoherent (arbitrate s).cl := by
  unfold arbitrate
  split
  · exact h
  · rename_i hl
    split
    · rename_i n a l ha
      obtain ⟨h1, h2, h3, h4⟩ := h
      unfold serviceAnswers at h1
      rw [ha, hl] at h1
      rw [ha] at h3 h4
      refine ⟨?_, h2, ?_, ?_⟩
      · unfold serviceAnswers
        cases hf : a.fromService <;> simp_all
      · unfold overrunCount at *
        cases hf : a.fromService <;> simp_all
        omega
      · simp at h4 ⊢; omega
    · obtain ⟨h1, h2, h3, h4⟩ := h
      refine ⟨?_, h2, h3, h4⟩
      unfold serviceAnswers at *
      rw [hl] at h1
      simpa using h1
    · exact h

theorem settle_slots {s : State} (h : slotsCoherent s.cl) : slotsCoherent (settle s).cl :=
  arbitrate_slots (s := refreshOutputs s.inRun s) h

end Sys2Proof.Machine
end

