-- ==== Sys2Proof/Laws/Requests.lean ====
section
/-! SUPPORT. What a request that arrives at a listening control link comes to, once for all requests: a proof about
one request shows what `carryOut` answers and cites `act_answer`, without unfolding the request slot. -/

namespace Sys2Proof.Machine

/-- The step of a request that is taken into service at once. -/
theorem act_submit {h : HeldRequest} {s : State} (l : listening s) :
    act (submit h) s =
      .next (settle (pushAnswer
        (serviceAnswer h (carryOut h.request (putCl { s.cl with inService := some h } s)).1)
        (carryOut h.request (putCl { s.cl with inService := some h } s)).2)) := by
  simp [act, l.1, submit, l.2, serve]

/-- A request whose effect leaves the control link alone. -/
theorem act_answer {h : HeldRequest} {s t : State} {status : Status} {payload : List Byte} (l : listening s)
    (c : ∀ x, carryOut h.request (putCl x s) = (⟨status, payload⟩, putCl x t)) (e : t.cl = s.cl) :
    act (submit h) s = .next (answering h status payload t) := by
  rw [act_submit l, c]
  simp only [answering, serviceAnswer, e]

/-- A refused request. -/
theorem act_refuse {h : HeldRequest} {s : State} {status : Status} (l : listening s)
    (c : ∀ x, carryOut h.request (putCl x s) = refuse status (putCl x s)) :
    act (submit h) s = .next (answering h status [] s) := act_answer l c rfl

theorem twoValued_eq (n : Nat) :
    twoValued n = if n = 0 then some false else if n = 1 then some true else none := by
  unfold twoValued
  rcases n with _ | _ | n <;> simp

theorem groupOfCode_none {n : Nat} (h : 1 < n) : groupOfCode n = none := by
  unfold groupOfCode
  split <;> first | rfl | omega

theorem inputOfCode_none (b : Byte) : inputOfCode b = none ↔ b = 0#8 ∨ 12 < b.toNat := by
  revert b; decide

theorem inputOfCode_some (b : Byte) (k : Fin 12) : b.toNat = k.val + 1 → inputOfCode b = some k := by
  revert b k; decide

theorem outputOfCode_none (b : Byte) : outputOfCode b = none ↔ b = 0#8 ∨ 8 < b.toNat := by
  revert b; decide

theorem outputOfCode_some (b : Byte) (k : Fin 8) : b.toNat = k.val + 1 → outputOfCode b = some k := by
  revert b k; decide

theorem entryOfCode_none (b : Byte) : entryOfCode b = none ↔ 23 < b.toNat := by
  revert b; decide

theorem entryOfCode_some (b : Byte) (n : Fin 24) : b.toNat = n.val → entryOfCode b = some n := by
  revert b n; decide

theorem InputMode.ofCode_none (b : Byte) : InputMode.ofCode b.toNat = none ↔ 2 < b.toNat := by
  revert b; decide

theorem Polarity.ofCode_none (b : Byte) : Polarity.ofCode b.toNat = none ↔ 1 < b.toNat := by
  revert b; decide

theorem Role.ofCode_none (b : Byte) : Role.ofCode b.toNat = none ↔ 5 < b.toNat := by
  revert b; decide

theorem OutSource.ofCode_none (b : Byte) : OutSource.ofCode b.toNat = none ↔ 12 < b.toNat := by
  revert b; decide

theorem parseRequest_kind (kind : Byte) (body : List Byte) : (parseRequest kind body).kind = kind := by
  unfold parseRequest
  cases h : requestLengths kind.toNat with
  | none => rfl
  | some p =>
    simp only
    split
    · revert h
      have hk : kind.toNat < 256 := kind.isLt
      have e : kind = BitVec.ofNat 8 kind.toNat := by simp
      generalize kind.toNat = n at *
      subst e
      unfold requestLengths
      split <;> first | (intro; rfl) | (intro h; cases h)
    · rfl

end Sys2Proof.Machine
end

