-- ==== Sys2Proof/Laws/Settings.lean ====
section
/-! SUPPORT. What a grid instant and a run's end leave, whatever happens at them: the settings of every block, the
state table, the time base apart from the run latch, the contact inputs apart from their pending
records, and the next grid instant once the grid has moved on. -/

namespace Sys2Proof.Machine

/-- The contact inputs without their pending records. -/
def ContactInputs.unpending (ci : ContactInputs) : ContactInputs :=
  { ci with
    inputs := ci.inputs.map fun x => { x with pendingEdge := none }
    sync := { ci.sync with pendingEdge := none } }

/-- The operation leaves the settings, the state table, the time base but for its latch, the contact inputs but for
their pending records, and the next grid instant. -/
structure Fixed (s t : State) : Prop where
  table : t.st = s.st
  channels : t.ws.settings = s.ws.settings
  ieMode : t.ws.ieMode = s.ws.ieMode
  breaker : t.bs.settings = s.bs.settings
  sources : t.bo.sources = s.bo.sources
  bits : t.bo.bits = s.bo.bits
  timeBase : { t.tb with latch := none } = { s.tb with latch := none }
  lines : t.contactLines = s.contactLines
  contacts : t.ci.unpending = s.ci.unpending
  nextGrid : t.ws.nextGrid = s.ws.nextGrid

theorem Fixed.of_eq {s t : State} (h1 : t.st = s.st) (h2 : t.ws.settings = s.ws.settings)
    (h3 : t.ws.ieMode = s.ws.ieMode) (h4 : t.bs.settings = s.bs.settings) (h5 : t.bo.sources = s.bo.sources)
    (h6 : t.bo.bits = s.bo.bits) (h7 : { t.tb with latch := none } = { s.tb with latch := none })
    (h8 : t.contactLines = s.contactLines) (h9 : t.ci.unpending = s.ci.unpending)
    (h10 : t.ws.nextGrid = s.ws.nextGrid) : Fixed s t :=
  ⟨h1, h2, h3, h4, h5, h6, h7, h8, h9, h10⟩

theorem Fixed.refl (s : State) : Fixed s s := ⟨rfl, rfl, rfl, rfl, rfl, rfl, rfl, rfl, rfl, rfl⟩

theorem Fixed.trans {s t u : State} (h : Fixed s t) (k : Fixed t u) : Fixed s u :=
  ⟨k.1.trans h.1, k.2.trans h.2, k.3.trans h.3, k.4.trans h.4, k.5.trans h.5, k.6.trans h.6, k.7.trans h.7,
    k.8.trans h.8, k.9.trans h.9, k.10.trans h.10⟩

theorem Fixed.fold {α : Type} {f : State → α → State} (h : ∀ s a, Fixed s (f s a)) (l : List α) (s : State) :
    Fixed s (l.foldl f s) := by
  induction l generalizing s with
  | nil => exact .refl s
  | cons a l ih => exact (h s a).trans (ih (f s a))

theorem raiseNotice_fixed (c : NoticeCause) (s : State) : Fixed s (raiseNotice c s) :=
  .of_eq rfl rfl rfl rfl rfl rfl rfl rfl rfl rfl

theorem judgeFill_fixed (grew : Bool) (s : State) : Fixed s (judgeFill grew s) := by
  unfold judgeFill
  split
  · exact .of_eq rfl rfl rfl rfl rfl rfl rfl rfl rfl rfl
  · exact .refl s

theorem offer_fixed (run time : Nat) (body : RecordBody) (s : State) : Fixed s (offer run time body s) := by
  unfold offer
  refine Fixed.trans ?_ (judgeFill_fixed _ _)
  exact .of_eq rfl rfl rfl rfl rfl rfl rfl rfl rfl rfl

theorem offerRun_fixed (time : Nat) {body : RecordBody} (_ : body.isBoundary = false) (s : State) :
    Fixed s (offerRun time body s) := offer_fixed _ _ _ s

theorem offerAt_fixed (count : Nat) {body : RecordBody} (_ : body.isBoundary = false) (s : State) :
    Fixed s (offerAt count body s) := by
  unfold offerAt; split <;> exact offer_fixed _ _ _ s

theorem refreshOutputs_fixed (b : Bool) (s : State) : Fixed s (refreshOutputs b s) :=
  .of_eq rfl rfl rfl rfl rfl rfl rfl rfl rfl rfl

theorem decideItem_fixed (k : Nat) (x : ItemRun) (d : Decision) (m : Option Int) (head : Nat) (s : State) :
    Fixed s (decideItem k x d m head s) := by
  unfold decideItem
  split
  · exact .refl s
  · refine Fixed.trans (t := _) ?_ (offerRun_fixed _ (by rfl) _)
    exact .of_eq rfl rfl rfl rfl rfl rfl rfl rfl rfl rfl

theorem judgeItem_fixed (x : Subject) (t head : Nat) (s : State) (k : Nat) : Fixed s (judgeItem x t head s k) := by
  unfold judgeItem
  repeat' split
  all_goals first | with_reducible exact .refl s | skip
  dsimp only
  split
  · exact decideItem_fixed _ _ _ _ _ s
  · exact .refl s

theorem assessEvent_fixed (x : Subject) (t head : Nat) (s : State) : Fixed s (assessEvent x t head s) :=
  .fold (fun s k => judgeItem_fixed x t head s k) _ s

theorem endItem_fixed (a : Bool) (head : Nat) (s : State) (k : Nat) : Fixed s (endItem a head s k) := by
  unfold endItem
  repeat' split
  all_goals first | with_reducible exact .refl s | exact decideItem_fixed _ _ _ _ _ s

theorem endVisit_fixed (a : Bool) (head : Nat) (s : State) : Fixed s (endVisit a head s) :=
  (Fixed.fold (fun s k => endItem_fixed a head s k) _ s).trans (.of_eq rfl rfl rfl rfl rfl rfl rfl rfl rfl rfl)

theorem openVisit_fixed (n : Fin 24) (c t : Nat) (l : List Item) (s : State) : Fixed s (openVisit n c t l s) :=
  .of_eq rfl rfl rfl rfl rfl rfl rfl rfl rfl rfl

theorem assessBreakerEvents_fixed (l : List BreakerEvent) (t head : Nat) (s : State) :
    Fixed s (assessBreakerEvents l t head s) := by
  refine .fold (fun s e => ?_) _ s
  split
  · exact assessEvent_fixed _ _ _ s
  · exact .refl s

theorem loadEntry_fixed (e : Entry) (s : State) : Fixed s (loadEntry e s) :=
  .of_eq rfl rfl rfl rfl rfl rfl rfl rfl rfl rfl

theorem dropOpenDc_fixed (s : State) : Fixed s (dropOpenDc s) := .of_eq rfl rfl rfl rfl rfl rfl rfl rfl rfl rfl

theorem putClip_fixed (ch : Fin 8) (b : Bool) (s : State) : Fixed s (putClip ch b s) :=
  .of_eq rfl rfl rfl rfl rfl rfl rfl rfl rfl rfl

theorem clipEpisode_fixed (t : Nat) (s : State) (ch : Fin 8) : Fixed s (clipEpisode t s ch) := by
  unfold clipEpisode
  dsimp only
  repeat' split
  all_goals first | with_reducible exact .refl s | exact (putClip_fixed _ _ s).trans (offerRun_fixed _ (by rfl) _)

theorem clipEpisodes_fixed (t : Nat) (s : State) : Fixed s (clipEpisodes t s) :=
  .fold (fun s ch => clipEpisode_fixed t s ch) _ s

theorem advanceAll_fixed (s : State) : Fixed s (advanceAll s) := .of_eq rfl rfl rfl rfl rfl rfl rfl rfl rfl rfl

theorem clearSynthesis_fixed (s : State) : Fixed s (clearSynthesis s) := .of_eq rfl rfl rfl rfl rfl rfl rfl rfl rfl rfl

theorem closeClip_fixed (t : Nat) (s : State) (ch : Fin 8) : Fixed s (closeClip t s ch) := by
  unfold closeClip
  split
  · exact (putClip_fixed _ _ s).trans (offerRun_fixed _ (by rfl) _)
  · exact .refl s

theorem closeClips_fixed (t : Nat) (s : State) : Fixed s (closeClips t s) :=
  .fold (fun s ch => closeClip_fixed t s ch) _ s

theorem breakerRecord_fixed (t : Nat) (x : BreakerSubject) (e : BreakerRecord) (d : Option Nat) (s : State) :
    Fixed s (breakerRecord t x e d s) := offerRun_fixed _ (by rfl) s

theorem putPole_fixed (p : Pole) (x : Position) (s : State) : Fixed s (putPole p x s) :=
  .of_eq rfl rfl rfl rfl rfl rfl rfl rfl rfl rfl

theorem tripFree_fixed (t : Nat) (p : Pole) (start : Nat) (s : State) : Fixed s (tripFree t p start s) :=
  (putPole_fixed _ _ s).trans (breakerRecord_fixed _ _ _ _ _)

theorem tripPole_fixed (te : Nat) (s : State) (p : Pole) : Fixed s (tripPole te s p) := by
  unfold tripPole
  split
  · exact (putPole_fixed _ _ s).trans (breakerRecord_fixed _ _ _ _ _)
  · exact .refl s
  · exact .refl s
  · exact .refl s
  · exact tripFree_fixed _ _ _ s

theorem tripPoles_fixed (l : List Pole) (te : Nat) (s : State) : Fixed s (tripPoles l te s) :=
  .fold (fun s p => tripPole_fixed te s p) l s

theorem closeBreaker_fixed (te : Nat) (s : State) : Fixed s (closeBreaker te s) := by
  unfold closeBreaker
  split
  · exact breakerRecord_fixed _ _ _ _ s
  · exact breakerRecord_fixed _ _ _ _ s
  · refine Fixed.trans ?_ (breakerRecord_fixed _ _ _ _ _)
    exact .of_eq rfl rfl rfl rfl rfl rfl rfl rfl rfl rfl

theorem partContacts_fixed (t : Nat) (s : State) (p : Pole) : Fixed s (partContacts t s p) := by
  unfold partContacts
  repeat' split
  all_goals first | with_reducible exact .refl s | exact (putPole_fixed _ _ s).trans (breakerRecord_fixed _ _ _ _ _)

theorem forceOpen_fixed (t : Nat) (s : State) (p : Pole) : Fixed s (forceOpen t s p) := by
  unfold forceOpen
  repeat' split
  all_goals first | with_reducible exact .refl s | exact (putPole_fixed _ _ s).trans (breakerRecord_fixed _ _ _ _ _)

theorem finishClosing_fixed (t : Nat) (s : State) (p : Pole) : Fixed s (finishClosing t s p) := by
  unfold finishClosing
  repeat' split
  all_goals first | with_reducible exact .refl s | exact (putPole_fixed _ _ s).trans (breakerRecord_fixed _ _ _ _ _)

theorem breakerExpiries_fixed (t : Nat) (s : State) : Fixed s (breakerExpiries t s) := by
  have h := ((Fixed.fold (fun s p => partContacts_fixed t s p) poleOrder s).trans
    (Fixed.fold (fun s p => forceOpen_fixed t s p) poleOrder _)).trans
    (Fixed.fold (fun s p => finishClosing_fixed t s p) poleOrder _)
  unfold breakerExpiries
  dsimp only
  split
  · exact h.trans (breakerRecord_fixed _ _ _ _ _)
  · exact h

theorem interruptPole_fixed (t : Nat) (s : State) (p : Pole) : Fixed s (interruptPole t s p) := by
  unfold interruptPole
  repeat' split
  all_goals first | with_reducible exact .refl s | skip
  dsimp only
  split
  · exact (putPole_fixed _ _ s).trans (breakerRecord_fixed _ _ _ _ _)
  · exact .refl s

theorem interruptPoles_fixed (t : Nat) (s : State) : Fixed s (interruptPoles t s) :=
  .fold (fun s p => interruptPole_fixed t s p) _ s

theorem chargeSpring_fixed (t : Nat) (s : State) : Fixed s (chargeSpring t s) := by
  unfold chargeSpring
  repeat' split
  all_goals first | with_reducible exact .refl s | skip
  refine Fixed.trans ?_ (breakerRecord_fixed _ _ _ _ _)
  exact .of_eq rfl rfl rfl rfl rfl rfl rfl rfl rfl rfl

theorem discrepancyPole_fixed (t : Nat) (s : State) (p : Pole) : Fixed s (discrepancyPole t s p) := by
  unfold discrepancyPole
  repeat' split
  all_goals first | with_reducible exact .refl s | exact putPole_fixed _ _ s | exact tripFree_fixed _ _ _ s

theorem discrepancyTrip_fixed (t start : Nat) (s : State) : Fixed s (discrepancyTrip t start s) :=
  (Fixed.fold (fun s p => discrepancyPole_fixed t s p) _ s).trans (breakerRecord_fixed _ _ _ _ _)

theorem putDiscrepancy_fixed (x : Discrepancy) (s : State) : Fixed s (putDiscrepancy x s) :=
  .of_eq rfl rfl rfl rfl rfl rfl rfl rfl rfl rfl

theorem judgeDiscrepancy_fixed (t : Nat) (s : State) : Fixed s (judgeDiscrepancy t s) := by
  unfold judgeDiscrepancy
  repeat' split
  all_goals first
    | with_reducible exact .refl s
    | exact putDiscrepancy_fixed _ s
    | exact (putDiscrepancy_fixed _ s).trans (discrepancyTrip_fixed _ _ _)

theorem resolvePole_fixed (t : Nat) (s : State) (p : Pole) : Fixed s (resolvePole t s p) := by
  unfold resolvePole
  split
  · exact (putPole_fixed _ _ s).trans (breakerRecord_fixed _ _ _ _ _)
  · exact .refl s

theorem decrementBy_fixed (x : CounterSource) (s : State) : Fixed s (decrementBy x s) :=
  .of_eq rfl rfl rfl rfl rfl rfl rfl rfl rfl rfl

/-- An input whose pending record alone has changed stands for the input before. -/
theorem set_unpending (v : Vector ContactInput 12) (k : Fin 12) (e : Option PendingEdge) :
    (v.set k { v[k] with pendingEdge := e }).map (fun x => { x with pendingEdge := none }) =
      v.map fun x => { x with pendingEdge := none } := by
  ext1 i hi
  by_cases h : k.val = i
  · subst h; simp
  · simp [h]

theorem dropPending_fixed (k : Fin 12) (e : Option PendingEdge) (s : State) :
    Fixed s (putInput k { s.ci.inputs[k] with pendingEdge := e } s) :=
  .of_eq rfl rfl rfl rfl rfl rfl rfl rfl
    (congrArg (fun v => { s.ci.unpending with inputs := v }) (set_unpending s.ci.inputs k e)) rfl

theorem dropPendingSync_fixed (e : Option PendingEdge) (s : State) :
    Fixed s (putSync { s.ci.sync with pendingEdge := e } s) :=
  .of_eq rfl rfl rfl rfl rfl rfl rfl rfl rfl rfl

theorem writePending_fixed (t : Nat) (s : State) (k : Fin 12) : Fixed s (writePending t s k) := by
  unfold writePending
  dsimp only
  split
  · exact (dropPending_fixed k none s).trans (offerRun_fixed _ (by rfl) _)
  · exact .refl s

theorem writePendingSync_fixed (t : Nat) (s : State) : Fixed s (writePendingSync t s) := by
  unfold writePendingSync
  split
  · exact (dropPendingSync_fixed none s).trans (offerRun_fixed _ (by rfl) _)
  · exact .refl s

theorem writeAllPending_fixed (t : Nat) (s : State) : Fixed s (writeAllPending t s) :=
  (writePendingSync_fixed t s).trans (.fold (fun s k => writePending_fixed t s k) _ _)

theorem closeAccounts_fixed (o : RunOutcome) (t : Nat) (s : State) : Fixed s (closeAccounts o t s) := by
  unfold closeAccounts
  dsimp only
  refine Fixed.trans (t := { s with sq := { s.sq with taken := none, guard := none, entrySample := false } })
    (.of_eq rfl rfl rfl rfl rfl rfl rfl rfl rfl rfl) ?_
  refine Fixed.trans (endVisit_fixed o.abandons t _) ?_
  refine Fixed.trans (writeAllPending_fixed t _) ?_
  refine Fixed.trans (closeClips_fixed t _) ?_
  refine Fixed.trans (clearSynthesis_fixed _) ?_
  generalize clearSynthesis _ = u
  refine Fixed.trans (t := poleOrder.foldl (resolvePole t) u) (.fold (fun s p => resolvePole_fixed t s p) _ _) ?_
  exact .of_eq rfl rfl rfl rfl rfl rfl rfl rfl rfl rfl

theorem goOn_fixed (o : RunOutcome) (s : State) : Fixed s (goOn o s) := by
  unfold goOn
  repeat' split
  all_goals exact .of_eq rfl rfl rfl rfl rfl rfl rfl rfl rfl rfl

theorem runEnd_fixed (o : RunOutcome) (s : State) : Fixed s (runEnd o s) := by
  unfold runEnd
  dsimp only
  refine Fixed.trans (closeAccounts_fixed o s.now s) ?_
  refine Fixed.trans ?_ (goOn_fixed o _)
  generalize closeAccounts o s.now s = u
  refine Fixed.trans (t := offerRun s.now (runEndBody o s.now u) u) (offer_fixed _ _ _ _) ?_
  exact .of_eq rfl rfl rfl rfl rfl rfl rfl rfl rfl rfl

theorem endWait_fixed (s : State) : Fixed s (endWait s) := .of_eq rfl rfl rfl rfl rfl rfl rfl rfl rfl rfl

theorem latchExit_fixed (g : Guard) (i t : Nat) (s : State) : Fixed s (latchExit g i t s) :=
  .of_eq rfl rfl rfl rfl rfl rfl rfl rfl rfl rfl

theorem takeExit_fixed (i : Nat) (x : Exit) (t : Nat) (c : Option Nat) (s : State) :
    Fixed s (takeExit i x t c s) := by
  unfold takeExit
  refine Fixed.trans (t := { s with sq := { s.sq with
    marks := applyMarkAction x.action s.sq.marks
    taken := some ⟨x.target, Fin.ofNat 6 i, t, c⟩
    guard := none } }) ((Fixed.of_eq rfl rfl rfl rfl rfl rfl rfl rfl rfl rfl)) ?_
  generalize ({ s with sq := { s.sq with
    marks := applyMarkAction x.action s.sq.marks
    taken := some ⟨x.target, Fin.ofNat 6 i, t, c⟩
    guard := none } } : State) = u
  dsimp only
  split
  · exact .refl u
  · split
    · exact runEnd_fixed _ u
    · split
      · exact (Fixed.of_eq rfl rfl rfl rfl rfl rfl rfl rfl rfl rfl)
      · exact .refl u

theorem judgeEvent_fixed (m : Trigger → Bool) (t : Nat) (s : State) : Fixed s (judgeEvent m t s) := by
  unfold judgeEvent
  split
  · rename_i hj
    repeat' split
    all_goals first
      | with_reducible exact .refl s
      | exact (latchExit_fixed _ _ _ s)
      | exact takeExit_fixed _ _ _ _ s
  · exact .refl s

theorem expireGuard_fixed (e : Entry) (l : Option Latch) (f : Option (Exit × Nat)) (t : Nat) (s : State) : Fixed s (expireGuard e l f t s) := by
  unfold expireGuard
  refine Fixed.trans (t := { s with sq := { s.sq with guard := none } })
    ((Fixed.of_eq rfl rfl rfl rfl rfl rfl rfl rfl rfl rfl)) ?_
  generalize ({ s with sq := { s.sq with guard := none } } : State) = u at *
  dsimp only
  repeat' split
  all_goals first
    | with_reducible exact .refl _
    | exact takeExit_fixed _ _ _ _ _

theorem judgeSample_fixed (c : Nat) (l : List BreakerEvent) (s : State) : Fixed s (judgeSample c l s) := by
  unfold judgeSample
  dsimp only
  split
  · rename_i hj
    repeat' split
    all_goals first
      | with_reducible exact .refl s
      | exact (latchExit_fixed _ _ _ s)
      | exact takeExit_fixed _ _ _ _ s
      | exact expireGuard_fixed _ _ _ _ s
  · exact .refl s

theorem sequenceEdge_fixed (n : Fin 13) (d : Direction) (t : Nat) (s : State) : Fixed s (sequenceEdge n d t s) := by
  unfold sequenceEdge
  split
  · exact (decrementBy_fixed _ s).trans (judgeEvent_fixed _ _ _)
  · exact judgeEvent_fixed _ _ s

theorem handCommandEvents_fixed (c : Option CounterSource) (l : List BreakerEvent) (t : Nat) (s : State) :
    Fixed s (handCommandEvents c l t s) := by
  unfold handCommandEvents
  dsimp only
  refine Fixed.trans (Fixed.trans ?_ (assessBreakerEvents_fixed l t _ _)) (judgeEvent_fixed _ _ _)
  split
  · exact (decrementBy_fixed _ _)
  · exact .refl _

theorem loadCounters_fixed (e : Entry) (s : State) : Fixed s (loadCounters e s) :=
  .of_eq rfl rfl rfl rfl rfl rfl rfl rfl rfl rfl

theorem loadPattern_fixed (p : BitVec 8) (s : State) : Fixed s (loadPattern p s) :=
  .of_eq rfl rfl rfl rfl rfl rfl rfl rfl rfl rfl

theorem countVisit_fixed (n : Fin 24) (s : State) : Fixed s (countVisit n s) :=
  .of_eq rfl rfl rfl rfl rfl rfl rfl rfl rfl rfl

theorem setGuard_fixed (e : Entry) (t : Nat) (s : State) : Fixed s (setGuard e t s) :=
  .of_eq rfl rfl rfl rfl rfl rfl rfl rfl rfl rfl

theorem enterState_fixed (n : Fin 24) (t : Nat) (s : State) : Fixed s (enterState n t s) := by
  unfold enterState
  split
  · exact .refl s
  · dsimp only
    refine Fixed.trans ?_ (setGuard_fixed _ _ _)
    refine Fixed.trans ?_ (openVisit_fixed _ _ _ _ _)
    refine Fixed.trans ?_ (offerRun_fixed _ (by rfl) _)
    refine Fixed.trans ?_ (countVisit_fixed _ _)
    refine Fixed.trans ?_ (loadPattern_fixed _ _)
    refine Fixed.trans ?_ (loadEntry_fixed _ _)
    refine Fixed.trans ?_ (decrementBy_fixed _ _)
    refine Fixed.trans ?_ (loadCounters_fixed _ _)
    refine Fixed.trans (endVisit_fixed false t s) ?_
    exact .of_eq rfl rfl rfl rfl rfl rfl rfl rfl rfl rfl

theorem beginSample_fixed (t : Nat) (s : State) : Fixed s (beginSample t s) := by
  unfold beginSample
  split
  · exact enterState_fixed _ _ s
  · exact .refl s

theorem computeWaves_fixed (t : Nat) (s : State) : Fixed s (computeWaves t s).1 := by
  unfold computeWaves
  dsimp only
  refine Fixed.trans ?_ (advanceAll_fixed _)
  refine Fixed.trans ?_ (clipEpisodes_fixed t _)
  refine Fixed.trans ?_ (interruptPoles_fixed t _)
  split
  · exact dropOpenDc_fixed s
  · exact .refl s

theorem computeSample_fixed (t : Nat) (s : State) : Fixed s (computeSample t s).1 := by
  unfold computeSample
  dsimp only
  refine Fixed.trans ?_ (refreshOutputs_fixed _ _)
  refine Fixed.trans ?_ (judgeDiscrepancy_fixed t _)
  refine Fixed.trans ?_ (chargeSpring_fixed t _)
  exact (breakerExpiries_fixed t s).trans (computeWaves_fixed t _)

theorem judgeSampleEvents_fixed (c : Nat) (l : List BreakerEvent) (s : State) :
    Fixed s (judgeSampleEvents c l s) := by
  unfold judgeSampleEvents
  refine Fixed.trans (assessBreakerEvents_fixed l (s.runTimeAt c) (s.runTimeAt c) s) ?_
  refine Fixed.trans (judgeSample_fixed c l _) ?_
  exact (Fixed.of_eq rfl rfl rfl rfl rfl rfl rfl rfl rfl rfl)

theorem runSample_fixed (c : Nat) (s : State) : Fixed s (runSample c s).1 := by
  unfold runSample
  dsimp only
  split
  · exact runEnd_fixed _ s
  · exact ((beginSample_fixed _ s).trans (computeSample_fixed _ _)).trans (judgeSampleEvents_fixed c _ _)

/-- The elapsed samples leave what `Fixed` says but for the next grid instant, which they set (R55). -/
theorem runElapsed_fixed (n c : Nat) (s : State) :
    Fixed s { runElapsed n c s with ws := { (runElapsed n c s).ws with nextGrid := s.ws.nextGrid } } := by
  induction n generalizing c s with
  | zero => exact (Fixed.of_eq rfl rfl rfl rfl rfl rfl rfl rfl rfl rfl)
  | succ n ih =>
    have h := runSample_fixed c s
    refine h.trans ?_
    unfold runElapsed
    dsimp only
    rw [← h.nextGrid]
    split
    · exact ih _ _
    · exact (Fixed.of_eq rfl rfl rfl rfl rfl rfl rfl rfl rfl rfl)

theorem groupLeftReady_fixed (s : State) : Fixed s (groupLeftReady s) := by
  unfold groupLeftReady
  split
  · rename_i h; exact runEnd_fixed _ s
  · rename_i h; exact runEnd_fixed _ s
  · rename_i h; exact endWait_fixed s
  · rename_i h; exact endWait_fixed s
  · exact .refl s

theorem handOverload_fixed (s : State) : Fixed s (handOverload s) := by
  unfold handOverload
  split
  · rename_i h
    repeat' split
    all_goals first | with_reducible exact .refl s | exact runEnd_fixed _ s
  · exact .refl s

theorem putGroup_fixed (g : Group) (x : AmpGroup) (s : State) : Fixed s (putGroup g x s) :=
  .of_eq rfl rfl rfl rfl rfl rfl rfl rfl rfl rfl

theorem enterFault_fixed (g : Group) (c : AmpEvent) (s : State) : Fixed s (enterFault g c s) := by
  have h (u : State) : Fixed s u → Fixed s (raiseNotice .ampFault (offerAt u.count (.amp g c none) u)) := fun k =>
    ((k.trans (offerAt_fixed _ (by rfl) u)).trans (raiseNotice_fixed _ _))
  unfold enterFault
  dsimp only
  split
  · exact (h _ (putGroup_fixed g _ s)).trans (groupLeftReady_fixed _)
  · exact h _ (putGroup_fixed g _ s)

theorem settleMissed_fixed (g : Group) (s : State) : Fixed s (settleMissed g s) := by
  unfold settleMissed
  dsimp only
  split
  · split
    · exact (putGroup_fixed g _ s).trans (enterFault_fixed _ _ _)
    · exact (putGroup_fixed g _ s)
  · with_reducible exact .refl _

theorem sendFrame_fixed (g : Group) (c : Vector Int 8) (s : State) : Fixed s (sendFrame g c s) := by
  unfold sendFrame
  dsimp only
  split
  · exact putGroup_fixed _ _ s
  · with_reducible exact .refl s

theorem frameInstant_fixed (g : Group) (c : Vector Int 8) (s : State) : Fixed s (frameInstant g c s) :=
  (settleMissed_fixed g s).trans (sendFrame_fixed g c _)

theorem gridSample_fixed (s : State) : Fixed s (gridSample s).1 := by
  unfold gridSample
  split
  · exact runSample_fixed _ s
  · exact .refl s

/-- What a grid instant leaves, once the grid has moved on. -/
theorem gridInstant_fixed (s : State) : Fixed (takeGrid s) (gridInstant s) := by
  unfold gridInstant
  refine Fixed.trans (gridSample_fixed _) ?_
  dsimp only
  refine Fixed.trans ?_ (frameInstant_fixed .i _ _)
  refine Fixed.trans ?_ (frameInstant_fixed .v _ _)
  exact (Fixed.of_eq rfl rfl rfl rfl rfl rfl rfl rfl rfl rfl)

/-! ### What a grid instant leaves of the contact inputs, and the grid it leaves -/

theorem Fixed.nextSample {s t : State} (h : Fixed s t) : t.ci.nextSample = s.ci.nextSample := by
  have := congrArg ContactInputs.nextSample h.contacts
  exact this

/-- Inputs that agree without their pending records differ in those alone. -/
theorem ContactInput.eq_of_unpending {x y : ContactInput}
    (h : { x with pendingEdge := none } = { y with pendingEdge := none }) :
    x = { y with pendingEdge := x.pendingEdge } := by
  cases x; cases y
  simp only [ContactInput.mk.injEq] at h ⊢
  simp [h]

/-- Every contact input is left but for its pending record. -/
theorem Fixed.input {s t : State} (h : Fixed s t) (k : Fin 12) :
    ∃ e, t.ci.inputs[k] = { s.ci.inputs[k] with pendingEdge := e } := by
  have := congrArg (fun ci : ContactInputs => ci.inputs[k]) h.contacts
  exact ⟨_, ContactInput.eq_of_unpending (by simpa [ContactInputs.unpending] using this)⟩

theorem gridInstant_input (k : Fin 12) (s : State) :
    ∃ e, (gridInstant s).ci.inputs[k] = { s.ci.inputs[k] with pendingEdge := e } :=
  (gridInstant_fixed s).input k

theorem gridInstant_nextGrid (s : State) : (gridInstant s).ws.nextGrid = s.count + 500 :=
  (gridInstant_fixed s).nextGrid

theorem gridInstant_count (s : State) : (gridInstant s).count = s.count := (gridInstant_sound s).quiet.count

/-- Sample 0 is taken once. -/
theorem firstSampleDue_gridInstant (s : State) : firstSampleDue (gridInstant s) = false := by
  have h : gridDue (gridInstant s) = false := by
    simp [gridDue, gridInstant_nextGrid, gridInstant_count]
  simp [firstSampleDue, h]

/-- After a sample 0 that came first, the edge finds no sample 0 to wait for. -/
theorem firstSampleFirst_gridInstant (k : Fin 12) (active : Bool) (s : State) :
    firstSampleFirst k active (gridInstant s) = gridInstant s := by
  simp [firstSampleFirst, firstSampleDue_gridInstant]

end Sys2Proof.Machine
end

