-- ==== Sys2Proof/Laws/Sine.lean ====
section
/-! SUPPORT. The sine of R68: the series of log 9 lies within 10⁻²⁰ of the sine, and the AC value within 1/2 + 2⁻⁵⁰ of
the exact product. The steps: the series against the exponential, the quotient of integers against the series, π to 160
binary places against π, the rounding, and the folding of the phase. -/

namespace Sys2Proof.Machine

/-- The imaginary part of the exponential series of iy is the sine series of y. -/
theorem im_expSum (y : ℝ) (K : ℕ) :
    (∑ m ∈ Finset.range (2 * K), ((y : ℂ) * Complex.I) ^ m / (m.factorial : ℂ)).im =
      ∑ k ∈ Finset.range K, (-1) ^ k * y ^ (2 * k + 1) / ((2 * k + 1).factorial : ℝ) := by
  induction K with
  | zero => simp
  | succ K ih =>
    have even : ((y : ℂ) * Complex.I) ^ (2 * K) = (((-1) ^ K * y ^ (2 * K) : ℝ) : ℂ) := by
      rw [mul_pow, pow_mul Complex.I, Complex.I_sq]; push_cast; ring
    have odd : ((y : ℂ) * Complex.I) ^ (2 * K + 1) = (((-1) ^ K * y ^ (2 * K + 1) : ℝ) : ℂ) * Complex.I := by
      rw [pow_succ, even]; push_cast; ring
    rw [show 2 * (K + 1) = 2 * K + 1 + 1 by ring, Finset.sum_range_succ, Finset.sum_range_succ, Complex.add_im,
      Complex.add_im, ih, Finset.sum_range_succ, even, odd]
    have e1 : ((((-1) ^ K * y ^ (2 * K) : ℝ) : ℂ) / ((2 * K).factorial : ℂ)).im = 0 := by
      rw [← Complex.ofReal_natCast, ← Complex.ofReal_div]; exact Complex.ofReal_im _
    have e2 : ((((-1) ^ K * y ^ (2 * K + 1) : ℝ) : ℂ) * Complex.I / ((2 * K + 1).factorial : ℂ)).im =
        (-1) ^ K * y ^ (2 * K + 1) / ((2 * K + 1).factorial : ℝ) := by
      rw [← Complex.ofReal_natCast, mul_div_right_comm, ← Complex.ofReal_div, Complex.im_ofReal_mul]; simp
    rw [e1, e2, add_zero]

/-- Eighteen terms of the series over |y| ≤ 2. -/
theorem sin_series_error (y : ℝ) (hy : |y| ≤ 2) :
    |Real.sin y - ∑ k ∈ Finset.range 18, (-1) ^ k * y ^ (2 * k + 1) / ((2 * k + 1).factorial : ℝ)| ≤ 1 / 10 ^ 30 := by
  have hn : ‖(y : ℂ) * Complex.I‖ = |y| := by simp
  have h := Complex.exp_bound' (x := (y : ℂ) * Complex.I) (n := 36) (by
    rw [hn]; push_cast; rw [div_le_iff₀ (by norm_num)]; linarith)
  have h2 := (Complex.abs_im_le_norm _).trans h
  rw [Complex.sub_im, Complex.exp_ofReal_mul_I_im, im_expSum y 18, hn] at h2
  refine h2.trans ?_
  have : |y| ^ 36 ≤ 2 ^ 36 := pow_le_pow_left₀ (abs_nonneg y) hy 36
  have f : ((36 : ℕ).factorial : ℝ) = 371993326789901217467999448150835200000000 := by norm_num [Nat.factorial]
  rw [f, div_mul_eq_mul_div, div_le_iff₀ (by norm_num)]
  nlinarith

/-- The sineBracket of the series as a real number. -/
noncomputable def sineBracket (z : ℝ) : ℕ → ℝ
  | 0 => 1
  | j + 1 => 1 - z / ((2 * (17 - j : ℕ)) * (2 * (17 - j : ℕ) + 1)) * sineBracket z j

/-- The quotient of integers is the bracket, and the natural subtraction in it is exact. -/
theorem sineSeries_sineBracket (xx : ℕ) (hx : (xx : ℝ) / 2 ^ 382 ≤ 3) (j : ℕ) (hj : j ≤ 17) :
    0 < (sineSeries xx j).2 ∧ ((sineSeries xx j).1 : ℝ) / (sineSeries xx j).2 = sineBracket (xx / 2 ^ 382) j ∧
      0 ≤ sineBracket (xx / 2 ^ 382) j ∧ sineBracket (xx / 2 ^ 382) j ≤ 1 := by
  induction j with
  | zero => simp [sineSeries, sineBracket]
  | succ j ih =>
    obtain ⟨h0, h1, h2, h3⟩ := ih (by omega)
    set z : ℝ := xx / 2 ^ 382 with hz
    have hz0 : 0 ≤ z := by positivity
    obtain ⟨n, hn⟩ : ∃ n, 17 - j = n + 1 := ⟨16 - j, by omega⟩
    have hd : (0 : ℝ) < (2 * ((17 - j : ℕ) : ℝ)) * (2 * ((17 - j : ℕ) : ℝ) + 1) := by rw [hn]; push_cast; positivity
    have hd6 : (6 : ℝ) ≤ (2 * ((17 - j : ℕ) : ℝ)) * (2 * ((17 - j : ℕ) : ℝ) + 1) := by
      rw [hn]; push_cast; nlinarith [(Nat.cast_nonneg n : (0 : ℝ) ≤ n)]
    have hD : (0 : ℝ) < (sineSeries xx j).2 := by exact_mod_cast h0
    have hq : z / ((2 * ((17 - j : ℕ) : ℝ)) * (2 * ((17 - j : ℕ) : ℝ) + 1)) ≤ 1 := by
      rw [div_le_one hd]; linarith
    have hq0 : 0 ≤ z / ((2 * ((17 - j : ℕ) : ℝ)) * (2 * ((17 - j : ℕ) : ℝ) + 1)) := by positivity
    have hb : sineBracket z (j + 1) = 1 - z / ((2 * (17 - j : ℕ)) * (2 * (17 - j : ℕ) + 1)) * sineBracket z j := rfl
    have hs : sineSeries xx (j + 1) =
        (2 ^ 382 * ((2 * (17 - j)) * (2 * (17 - j) + 1)) * (sineSeries xx j).2 - xx * (sineSeries xx j).1,
          2 ^ 382 * ((2 * (17 - j)) * (2 * (17 - j) + 1)) * (sineSeries xx j).2) := rfl
    have hN : ((sineSeries xx j).1 : ℝ) = sineBracket z j * (sineSeries xx j).2 := by
      rw [← h1]; field_simp
    have hxx : (xx : ℝ) = z * 2 ^ 382 := by rw [hz]; field_simp
    have hle : (xx : ℝ) * (sineSeries xx j).1 ≤
        2 ^ 382 * ((2 * ((17 - j : ℕ) : ℝ)) * (2 * ((17 - j : ℕ) : ℝ) + 1)) * (sineSeries xx j).2 := by
      rw [hN, hxx]
      have : z * sineBracket z j ≤ (2 * ((17 - j : ℕ) : ℝ)) * (2 * ((17 - j : ℕ) : ℝ) + 1) := by nlinarith
      have h382 : (0 : ℝ) ≤ 2 ^ 382 * (sineSeries xx j).2 := by positivity
      calc z * 2 ^ 382 * (sineBracket z j * (sineSeries xx j).2)
          = z * sineBracket z j * (2 ^ 382 * (sineSeries xx j).2) := by ring
        _ ≤ _ := mul_le_mul_of_nonneg_right this h382
        _ = _ := by ring
    have hleN : xx * (sineSeries xx j).1 ≤ 2 ^ 382 * ((2 * (17 - j)) * (2 * (17 - j) + 1)) * (sineSeries xx j).2 := by
      exact_mod_cast hle
    refine ⟨?_, ?_, ?_, ?_⟩
    · rw [hs]; rw [hn]; positivity
    · rw [hs, hb]
      simp only []
      rw [Nat.cast_sub hleN]
      push_cast
      rw [hN, hxx]
      have hm : (((17 - j : ℕ) : ℝ)) ≠ 0 := by rw [hn]; positivity
      field_simp
    · rw [hb]; nlinarith
    · rw [hb]; nlinarith

theorem sineBracket_sum (y : ℝ) :
    y * sineBracket (y * y) 17 = ∑ k ∈ Finset.range 18, (-1) ^ k * y ^ (2 * k + 1) / ((2 * k + 1).factorial : ℝ) := by
  simp only [sineBracket, Finset.sum_range_succ, Finset.sum_range_zero, Nat.factorial]
  push_cast
  ring

theorem pi_scaled : |(piScaled : ℝ) / 2 ^ 160 - Real.pi| ≤ 1 / 10 ^ 20 := by
  have h1 := Real.pi_gt_d20
  have h2 := Real.pi_lt_d20
  have h3 : (3.14159265358979323846 : ℝ) < (piScaled : ℝ) / 2 ^ 160 ∧
      (piScaled : ℝ) / 2 ^ 160 < 3.14159265358979323847 := by
    unfold piScaled; constructor <;> norm_num
  rw [abs_le]; constructor <;> norm_num at * <;> linarith [h3.1, h3.2]

theorem roundNat_near (n d : ℕ) (hd : 0 < d) : |(roundNat n d : ℝ) - n / d| ≤ 1 / 2 := by
  unfold roundNat
  have h1 := Nat.div_mul_le_self (2 * n + d) (2 * d)
  have h2 := Nat.lt_div_mul_add (a := 2 * n + d) (b := 2 * d) (by omega)
  generalize (2 * n + d) / (2 * d) = q at *
  have hd' : (0 : ℝ) < d := by exact_mod_cast hd
  have h1' : (q : ℝ) * (2 * d) ≤ 2 * n + d := by exact_mod_cast h1
  have h2' : (2 * n + d : ℝ) < q * (2 * d) + 2 * d := by exact_mod_cast h2
  have hn : (n : ℝ) = n / d * d := by field_simp
  set z : ℝ := n / d
  rw [hn] at h1' h2'
  rw [abs_le]
  constructor
  · by_contra h; push Not at h; nlinarith
  · by_contra h; push Not at h; nlinarith

/-- The series at a folded phase is the sine within 10⁻²⁰. -/
theorem sineSeries_near (r x : ℕ) (s : ℕ × ℕ) (hr : r ≤ 2 ^ 30) (hx : x = piScaled * r)
    (hs : sineSeries (x * x) 17 = s) :
    0 < s.2 ∧ |((x * s.1 : ℕ) : ℝ) / ((2 ^ 191 * s.2 : ℕ) : ℝ) - Real.sin (2 * Real.pi * r / 2 ^ 32)| ≤ 1 / 10 ^ 20 := by
  have hpi := abs_le.1 pi_scaled
  have hlt := Real.pi_lt_d2
  have hgt := Real.pi_gt_three
  have hr' : (r : ℝ) / 2 ^ 31 ≤ 1 / 2 := by
    have : (r : ℝ) ≤ 2 ^ 30 := by exact_mod_cast hr
    rw [div_le_iff₀ (by norm_num)]; norm_num at *; linarith
  have hr0 : (0 : ℝ) ≤ (r : ℝ) / 2 ^ 31 := by positivity
  set y : ℝ := (piScaled : ℝ) / 2 ^ 160 * (r / 2 ^ 31) with hy
  have hp0 : (0 : ℝ) ≤ (piScaled : ℝ) / 2 ^ 160 := by positivity
  have hy0 : 0 ≤ y := by positivity
  have hy2 : y ≤ 1.6 := by
    have : (piScaled : ℝ) / 2 ^ 160 ≤ 3.2 := by norm_num at hpi ⊢; linarith [hpi.2]
    rw [hy]; nlinarith
  have hxy : (x : ℝ) = y * 2 ^ 191 := by
    rw [hy, hx]; push_cast
    rw [show (2 : ℝ) ^ 191 = 2 ^ 160 * 2 ^ 31 by norm_num]; field_simp
  have hxx : ((x * x : ℕ) : ℝ) / 2 ^ 382 = y * y := by
    push_cast; rw [hxy, show (2 : ℝ) ^ 382 = 2 ^ 191 * 2 ^ 191 by rw [← pow_add]]; field_simp
  obtain ⟨h0, h1, -, -⟩ := sineSeries_sineBracket (x * x) (by rw [hxx]; nlinarith) 17 le_rfl
  rw [hs] at h0 h1
  refine ⟨h0, ?_⟩
  rw [hxx] at h1
  have hD : (0 : ℝ) < s.2 := by exact_mod_cast h0
  have hval : ((x * s.1 : ℕ) : ℝ) / ((2 ^ 191 * s.2 : ℕ) : ℝ) = y * sineBracket (y * y) 17 := by
    rw [← h1]; push_cast; rw [hxy]; field_simp; norm_num; ring
  rw [hval, sineBracket_sum]
  have e1 := sin_series_error y (by rw [abs_of_nonneg hy0]; linarith)
  have e2 := Real.abs_sin_sub_sin_le y (2 * Real.pi * r / 2 ^ 32)
  have e3 : |y - 2 * Real.pi * r / 2 ^ 32| ≤ 1 / 2 / 10 ^ 20 := by
    have : y - 2 * Real.pi * r / 2 ^ 32 = ((piScaled : ℝ) / 2 ^ 160 - Real.pi) * (r / 2 ^ 31) := by rw [hy]; ring
    rw [this, abs_mul, abs_of_nonneg hr0]
    have := pi_scaled
    calc _ ≤ 1 / 10 ^ 20 * (1 / 2) := mul_le_mul this hr' hr0 (by norm_num)
      _ = _ := by norm_num
  have e4 := e2.trans e3
  rw [abs_le] at *
  norm_num at *
  constructor <;> linarith

theorem sineMagnitude_near (a : ℕ) (ha : a ≤ 32767) (theta : Word) :
    |(sineMagnitude a theta : ℝ) - a * Real.sin (2 * Real.pi * foldedPhase theta / 2 ^ 32)| ≤ 1 / 2 + 1 / 2 ^ 50 := by
  have hr : foldedPhase theta ≤ 2 ^ 30 := by
    unfold foldedPhase; simp only []; split <;> omega
  have hdef : sineMagnitude a theta = min a (roundNat
      (a * (piScaled * foldedPhase theta) *
        (sineSeries (piScaled * foldedPhase theta * (piScaled * foldedPhase theta)) 17).1)
      (2 ^ 191 * (sineSeries (piScaled * foldedPhase theta * (piScaled * foldedPhase theta)) 17).2)) := rfl
  rw [hdef]
  generalize hx : piScaled * foldedPhase theta = x
  generalize hs : sineSeries (x * x) 17 = s
  obtain ⟨h0, h1⟩ := sineSeries_near (foldedPhase theta) x s hr hx.symm hs
  have hv := Real.sin_le_one (2 * Real.pi * foldedPhase theta / 2 ^ 32)
  generalize Real.sin (2 * Real.pi * foldedPhase theta / 2 ^ 32) = v at *
  have hd : 0 < 2 ^ 191 * s.2 := by positivity
  have h2 := roundNat_near (a * x * s.1) (2 ^ 191 * s.2) hd
  generalize roundNat (a * x * s.1) (2 ^ 191 * s.2) = n at *
  have hq : ((a * x * s.1 : ℕ) : ℝ) / ((2 ^ 191 * s.2 : ℕ) : ℝ) =
      a * (((x * s.1 : ℕ) : ℝ) / ((2 ^ 191 * s.2 : ℕ) : ℝ)) := by push_cast; ring
  rw [hq] at h2
  generalize ((x * s.1 : ℕ) : ℝ) / ((2 ^ 191 * s.2 : ℕ) : ℝ) = w at *
  have ha' : (a : ℝ) ≤ 32767 := by exact_mod_cast ha
  have ha0 : (0 : ℝ) ≤ a := by positivity
  have hav : (a : ℝ) * v ≤ a := by nlinarith
  have h3 : |(a : ℝ) * w - a * v| ≤ 1 / 2 ^ 50 := by
    rw [← mul_sub, abs_mul, abs_of_nonneg ha0]
    calc (a : ℝ) * |w - v| ≤ 32767 * (1 / 10 ^ 20) := mul_le_mul ha' h1 (abs_nonneg _) (by norm_num)
      _ ≤ _ := by norm_num
  have h4 : |(n : ℝ) - a * v| ≤ 1 / 2 + 1 / 2 ^ 50 := by
    calc |(n : ℝ) - a * v| = |((n : ℝ) - a * w) + (a * w - a * v)| := by ring_nf
      _ ≤ _ := (abs_add_le _ _).trans (add_le_add h2 h3)
  push_cast
  rcases le_total (a : ℝ) n with h | h
  · rw [min_eq_left h, abs_of_nonneg (by linarith)]
    have := (abs_le.1 h4).2; linarith
  · rw [min_eq_right h]; exact h4

/-- R68: the AC value lies within 1/2 + 2⁻⁵⁰ of the exact product. -/
theorem sineCode_near (a : ℕ) (ha : a ≤ 32767) (theta : Word) :
    |((sineCode a theta : ℤ) : ℝ) - a * Real.sin (2 * Real.pi * theta.toNat / 2 ^ 32)| ≤ 1 / 2 + 1 / 2 ^ 50 := by
  have hm := sineMagnitude_near a ha theta
  have hlt := theta.isLt
  have fold : Real.sin (2 * Real.pi * foldedPhase theta / 2 ^ 32) =
      Real.sin (2 * Real.pi * (theta.toNat % 2 ^ 31 : ℕ) / 2 ^ 32) := by
    unfold foldedPhase; simp only []; split
    · rfl
    · have hle : theta.toNat % 2 ^ 31 ≤ 2 ^ 31 := by omega
      rw [Nat.cast_sub hle, ← Real.sin_pi_sub]; congr 1; push_cast; ring
  rw [fold] at hm
  unfold sineCode
  split
  · rename_i h
    rw [Nat.mod_eq_of_lt h] at hm; exact_mod_cast hm
  · rename_i h
    have hs : (theta.toNat : ℝ) = ((theta.toNat % 2 ^ 31 : ℕ) : ℝ) + 2 ^ 31 := by
      have : theta.toNat = theta.toNat % 2 ^ 31 + 2 ^ 31 := by omega
      exact_mod_cast this
    have : Real.sin (2 * Real.pi * theta.toNat / 2 ^ 32) =
        -Real.sin (2 * Real.pi * (theta.toNat % 2 ^ 31 : ℕ) / 2 ^ 32) := by
      rw [← Real.sin_add_pi]; congr 1; rw [hs]; ring
    rw [this]; push_cast
    rw [show ∀ p q r : ℝ, -p - q * -r = -(p - q * r) by intros; ring, abs_neg]; exact hm
end Sys2Proof.Machine
end

