-- ==== Sys2Proof/WellFormed.lean ====
section
/-! DEFINITION. Which commands can occur at all: the limits their operand types do not already hold. A command
that is not well formed still has a meaning (it is ignored or discarded); none of them is a stop. -/

namespace Sys2Proof

/-- A frame body has 0..1,024 bytes (R1). -/
def bodyFits (body : List Byte) : Bool := body.length ≤ 1024

/-- Only BI1..BI12 have a debounce window (R49). -/
def hasWindow (input : Fin 13) : Bool := input ≠ 0

/-- An edge that a counter counts is an edge of BI1..BI12 (R142: input 0 is not a counter source). -/
def countedStepOk : CountedStep → Bool
  | .qualification input => hasWindow input
  | .windowEnd input => hasWindow input
  | .inject _ _ _ => true
  | .gridInstant => true

/-- The command can occur. -/
def Instr.wellFormed : Instr → Bool
  | .frameReceived _ _ body => bodyFits body
  | .interByteGap => true
  | .frameSent => true
  | .ident _ => true
  | .status _ => true
  | .reset _ => true
  | .chanset _ _ _ _ _ _ => true
  | .inset _ _ _ _ _ _ => true
  | .inject _ _ _ => true
  | .ampon _ _ => true
  | .ampoff _ _ => true
  | .brkset _ _ _ _ _ _ _ _ _ _ _ _ _ _ => true
  | .outset _ _ _ _ => true
  | .stwrite _ body => bodyFits body
  | .stread _ _ => true
  | .stclear _ _ => true
  | .cntset _ _ _ _ => true
  | .run _ _ _ _ _ _ _ _ _ => true
  | .halt _ => true
  | .go _ => true
  | .tcal _ _ => true
  | .tcalx _ => true
  | .tsec _ _ => true
  | .repread _ _ => true
  | .powerOn => true
  | .resetLineAsserted => true
  | .resetLineReleased => true
  | .ppsEdge => true
  | .internalMark => true
  | .closingPulse => true
  | .qualification _ => true
  | .windowEnd input => hasWindow input
  | .gridInstant => true
  | .acknowledgment _ _ _ _ => true
  | .settlingComplete _ _ _ _ => true
  | .linkLost _ => true
  | .overloadEvent _ _ _ _ _ => true
  | .contactsParted _ => true
  | .interruptedForced _ => true
  | .closingExpiry _ => true
  | .springCharged => true
  | .discrepancyTrip => true
  | .afterExit _ => true
  | .guardExpiry => true
  | .limit => true
  | .gapEnd => true
  | .decrementToZero _ via => countedStepOk via
  | .contactSample _ _ => true
  | .byteReceived _ _ _ => true
  | .acknowledgmentByte _ _ => true

end Sys2Proof
end

