-- ==== Sys2Proof/Tests/Slice0.lean ====
section
/-! SUPPORT. The model's own tests: what the well-formedness check refuses, the spec's worked numbers, and for every
statement a concrete state and operands that meet its hypotheses, with the outcome there. -/

open Sys2Proof Sys2Proof.Machine

namespace Sys2Proof.Tests

-- Each test waits for the kernel; one after another they need one thread.
set_option Elab.async false

/-! ### Helpers -/

/-- The state after a command. -/
def after (c : Instr) (s : State) : State :=
  match exec c s with
  | .next t => t
  | .fault _ => s
  | .refused _ => s

/-- Status and answer body of the answer that a command puts on the free line. -/
def reply (c : Instr) (s : State) : Option (Status × List Byte) :=
  match (after c s).cl.line with
  | some x =>
    match x.frame with
    | .answer a => some (a.status, a.payload)
    | .notice _ => none
  | none => none

def statusOf (c : Instr) (s : State) : Option Status := (reply c s).map (·.1)

def readyGroup : AmpGroup := { AmpGroup.reset with state := .ready, acked := 2000 }

def plainPart : ChannelPart := ⟨1000, 0, 50000, 1000, 0, .set, .noDc⟩

def plainEntry : Entry :=
  { channels := .replicate 8 plainPart, decay := 64000, guard := 0, inception := none, pattern := 5
    loads := .replicate 4 none, exits := [], items := [] }

def withExits (l : List Exit) : Entry := { plainEntry with exits := l }

/-- IDLE with both groups READY and entries S0 and S1. -/
def idleState : State :=
  { State.reset with
    al := ⟨readyGroup, readyGroup⟩
    st := { StateTable.reset with entries := (StateTable.reset.entries.set 0 (some plainEntry)).set 1 (some plainEntry) } }

def someRun (mode : RunMode) (trigger : RunTrigger) : RunSettings :=
  ⟨mode, 3, 0, trigger, 7, 0, 50000, .abort⟩

/-- The sequencer in another state, with run settings. -/
def inState (state : SeqState) (r : RunSettings) : State :=
  { idleState with sq := { idleState.sq with state := state, settings := some r, current := some 0, remainder := 2 } }

/-- RUNNING in S0 since run time 0 with T0 at count 0, at an instant of the grid. -/
def running (e : Entry) (count : Nat) : State :=
  { idleState with
    count := count
    st := { idleState.st with entries := idleState.st.entries.set 0 (some e) }
    ws := { Synthesis.reset with nextGrid := count }
    tb := { TimeBase.reset with latch := some ⟨0, 0⟩ }
    bs := { Breaker.reset with active := true }
    sq := { Sequencer.reset with
      state := .running, settings := some (someRun .single .immediate), runNumber := 1, current := some 0
      visits := Sequencer.reset.visits.set 0 1, visited := 1 }
    asmt := { Assessment.reset with visit := some ⟨0, 1, 0, []⟩ }
    rs := { ReportStore.reset with window := some ⟨1, 0⟩, nextSeq := 3 } }

/-- A full line: another frame is being sent. -/
def busyLine (s : State) : State :=
  { s with cl := { s.cl with line := some ⟨.answer ⟨1, 1, .ok, [], true⟩, 0⟩, inService := some ⟨1, .ident⟩ } }

/-! ### Well-formedness -/

theorem test_wellformed_long_frame_refused :
    Instr.wellFormed (.frameReceived 1 2 (List.replicate 1025 0)) = false ∧
      Instr.wellFormed (.frameReceived 1 2 (List.replicate 1024 0)) = true := by decide +kernel

theorem test_wellformed_long_stwrite_refused :
    Instr.wellFormed (.stwrite 2 (List.replicate 1025 0)) = false := by decide +kernel

theorem test_wellformed_window_of_sync_refused :
    Instr.wellFormed (.windowEnd 0) = false ∧ Instr.wellFormed (.windowEnd 12) = true := by decide

theorem test_wellformed_sync_counts_nothing :
    Instr.wellFormed (.decrementToZero 0 (.qualification 0)) = false ∧
      Instr.wellFormed (.decrementToZero 0 (.windowEnd 0)) = false ∧
      Instr.wellFormed (.decrementToZero 0 .gridInstant) = true := by decide

/-! ### Worked numbers of the spec -/

/-- R25. -/
theorem test_calibration_results :
    calibrated 10 100000250 = 2500 ∧ calibrated 8 80000001 = 13 ∧ calibrated 4 40004400 = 110000 := by decide

/-- R16. -/
theorem test_expected_intervals :
    expectedInterval 0 = 10000000 ∧ expectedInterval 2500 = 10000025 ∧ expectedInterval (-3250) = 9999967 := by
  decide

/-- R31's table. -/
theorem test_run_times :
    runTime 0 25000 1000025000 = 100000000 ∧ runTime 0 2500 30000075 = 3000000 ∧
      runTime 0 2500 10000000 = 999997 ∧ runTime 0 2500 10 = 0 ∧ runTime 0 2500 11 = 1 ∧
      runTime 0 (-3250) 9999968 = 1000000 ∧ runTime 7 0 3 = 0 := by decide

/-- 00_scope.md, Rounding. -/
theorem test_roundings :
    roundDiv 5 2 = 3 ∧ roundDiv (-5) 2 = -3 ∧ truncDiv (-79) 10 = -7 ∧ roundDiv 4 3 = 1 := by decide

/-- CRC-16 with initial value FFFFh over the ASCII digits 1 to 9 (R1). -/
theorem test_check_value :
    crc16 [0x31, 0x32, 0x33, 0x34, 0x35, 0x36, 0x37, 0x38, 0x39] = 0x29B1 := by decide +kernel

/-- R68 at the quarter turns. -/
theorem test_sine_at_quarters :
    sineCode 10000 0 = 0 ∧ sineCode 10000 0x40000000 = 10000 ∧ sineCode 10000 0x80000000 = 0 ∧
      sineCode 10000 0xC0000000 = -10000 ∧ sineCode 10000 0x15555555 = 5000 := by decide +kernel

/-- R60, R61. -/
theorem test_increments_and_angles :
    increment 50000 0 = 10737418 ∧ increment 50000 25000 = 10737150 ∧ increment 60000 0 = 12884902 ∧
      increment 5000 0 = 1073742 ∧ increment 1000000 0 = 214748365 ∧ increment 0 0 = 0 ∧
      anglePhase 3000 = 357913941 ∧ anglePhase 9000 = 1073741824 ∧ anglePhase 35999 = 4294847991 := by
  decide +kernel

/-- R64. -/
theorem test_ramps :
    loadRamp 0 100 1 = (327680, 100) ∧ loadRamp 7 7 9 = (0, 7) ∧ loadRamp 5 9 0 = (0, 5) ∧
      loadRamp 0 1 60000 = (1, 1) ∧ loadRamp 1 0 60000 = (-1, 0) := by decide +kernel

/-- R103: a candidate of 0 or of the other sign interrupts; one that follows an s_prev of 0 does not. -/
theorem test_zero_crossings :
    crossesZero 0 0 = true ∧ crossesZero 3 (-2) = true ∧ crossesZero 3 2 = false ∧ crossesZero 3 0 = false := by
  decide

/-- R193, R196: the presence mask of an entry record with exit time and cause time. -/
theorem test_presence_mask :
    presenceMask (.stateEntry 2 1 9 (some 1) (some 0) (some 7) none) = 7 ∧
      presenceMask (.runEnd .complete 1 1 0 0 0) = 0 ∧
      (Record.bytes ⟨1, 1, 0, .runEnd .complete 1 1 0 0 0⟩).length = 34 := by decide

/-- R1, R202: an IDENT request's and its answer's frames on the line. -/
theorem test_ident_frames :
    (frameBytes 0x01 0x05 []).take 6 = [0xD1, 0x2E, 0x00, 0x00, 0x01, 0x05] ∧
      ((OutFrame.answer ⟨1, 5, .ok, [0x6C, 2, 1], true⟩).bytes.take 10) =
        [0xD1, 0x2E, 0x04, 0x00, 0x81, 0x05, 0x00, 0x6C, 0x02, 0x01] ∧
      (OutFrame.answer ⟨1, 5, .ok, [0x6C, 2, 1], true⟩).bytes.length = 12 := by decide +kernel

/-! ### The queue and the clock -/

theorem test_witness_step_in_front :
    ({ State.reset with pending := [.ident 9, .go 1] } : State).pending = .ident 9 :: [.go 1] ∧
      step { State.reset with pending := [.ident 9, .go 1] } =
        exec (.ident 9) { State.reset with pending := [.go 1] } := ⟨rfl, rfl⟩

/-- Nothing due; one event due (the gap end); two due (the contact sample and the grid instant at count 0). -/
theorem test_witness_empty_queue :
    dueEvents { State.reset with count := 1 } = [] ∧
      dueEvents { inState .gap (someRun .repeated .go) with
        count := 1, sq := { (inState .gap (someRun .repeated .go)).sq with gapEnd := some 1 } } = [.gapEnd] ∧
      dueEvents State.reset = [.contactSample 0 false, .gridInstant] := by decide +kernel

/-! ### The control link -/

/-- R203: fields written out byte by byte, and the two ends of the STWRITE body's length. -/
theorem test_request_bodies :
    parseRequest 0x10 [7, 0x34, 0x12, 0, 0x80, 0xFF, 0xFF, 1] = .chanset 7 0x1234 0x8000 0xFFFF 1 ∧
      parseRequest 0x3A [1, 2, 3, 4] = .tsec 0x04030201 ∧ parseRequest 0x11 [4, 1, 0, 5, 0xE8, 3] = .inset 4 1 0 5 1000 ∧
      parseRequest 0x30 [1, 3, 0, 0, 1, 0, 0, 2, 9, 0, 0, 0, 5, 0x50, 0xC3, 0, 0, 1] =
        .run 1 3 256 2 9 5 50000 1 ∧
      parseRequest 0x20 (List.replicate 133 0) = .stwrite (List.replicate 133 0) ∧
      parseRequest 0x20 (List.replicate 229 0) = .stwrite (List.replicate 229 0) ∧
      parseRequest 0x20 (List.replicate 230 0) = .wrongLength 0x20 := by decide +kernel

theorem test_witness_frame_bytes :
    State.reset.cl.receiver = .hunt ∧
      (frameBytes 0x12 0x33 [1, 1]).foldl (fun s b => receiveByte b s) State.reset =
        submitFrame 0x12 0x33 [1, 1] State.reset := by decide +kernel

theorem test_witness_frames_served :
    statusOf (.frameReceived 0x01 7 []) State.reset = some .ok ∧
      statusOf (.frameReceived 0x40 7 []) State.reset = some .unknown ∧
      statusOf (.frameReceived 0x01 7 [0]) State.reset = some .length ∧
      (after (.frameReceived 0x01 7 []) (busyLine State.reset)).cl.holding = some ⟨7, .ident⟩ := by decide +kernel

/-- The holding slot occupied: an OVERRUN answer, and none beside eight that wait. -/
theorem test_witness_frames_overrun :
    let s := { busyLine State.reset with cl := { (busyLine State.reset).cl with holding := some ⟨2, .go⟩ } }
    let t := { s with cl := { s.cl with answers := List.replicate 8 ⟨1, 1, .overrun, [], false⟩ } }
    (after (.frameReceived 0x01 7 []) s).cl.answers = [⟨1, 7, .overrun, [], false⟩] ∧
      (after (.frameReceived 0x01 7 []) t).cl = t.cl := by decide +kernel

/-- A request command beside a request in service: held, refused with OVERRUN, discarded (R4, R5). -/
theorem test_witness_requests_in_service :
    let s := busyLine State.reset
    let held := { s with cl := { s.cl with holding := some ⟨2, .go⟩ } }
    let full := { held with cl := { held.cl with answers := List.replicate 8 ⟨1, 1, .overrun, [], false⟩ } }
    requestOf (.tcal 7 3) = some ⟨7, .tcal 3⟩ ∧ requestOf (.stwrite 7 []) = none ∧
      after (.tcal 7 3) s = settle (putCl { s.cl with holding := some ⟨7, .tcal 3⟩ } s) ∧
      (after (.tcal 7 3) held).cl.answers = [⟨0x38, 7, .overrun, [], false⟩] ∧
      after (.tcal 7 3) full = settle full := by decide +kernel

theorem test_witness_ident_status_reset :
    listening State.reset ∧ reply (.ident 3) State.reset = some (.ok, [0x6C, 2, 1]) ∧
      statusOf (.status 3) State.reset = some .ok ∧ reply (.reset 3) State.reset = some (.ok, []) :=
  ⟨⟨rfl, rfl⟩, by decide⟩

theorem test_witness_end_of_reset_answer :
    let s := after (.reset 3) { running plainEntry 1000 with count := 1001 }
    s.resetLine = false ∧ s.cl.line = some ⟨.answer ⟨3, 3, .ok, [], true⟩, 1001⟩ ∧
      s.cl.inService = some ⟨3, .reset⟩ ∧ (after .frameSent s).sq = Sequencer.reset ∧
      (after .frameSent s).count = 1001 := by decide

/-- A snapshot byte by byte from R203. -/
theorem test_snapshot_bytes :
    let base := running plainEntry 1000
    let level (k : Fin 12) (s : State) : State := putInput k { s.ci.inputs[k] with settled := true } s
    let s := level 11 (level 0 { base with
      sq := { base.sq with
        runNumber := 258, marks := 0x8001, counters := #v[1, 2, 3, 255], lastOutcome := some .limit, state := .pointing
        taken := some ⟨.state 9, 0, 50, none⟩ }
      bs := { base.bs with poles := ⟨.opened, .closing 4, .arcing 3⟩, spring := .charging none }
      bo := { base.bo with outputs := base.bo.outputs.set 7 true }
      tb := { base.tb with state := .holdover, c := -2, pendingC := some 5, epoch := true, second := 0x01020304 }
      al := ⟨readyGroup, { readyGroup with state := .fault }⟩ })
    s.snapshot.bytes =
      [3, 2, 1, 0, 9, 5, 3, 4, 2, 1, 0x01, 0x80, 1, 2, 3, 255, 0x02, 0x10, 0x80, 3, 254, 255, 255, 255, 3, 5, 0, 0, 0,
        4, 3, 2, 1, 2, 3, 0, 0] ∧
      (Notice.body ⟨.ampFault, s.snapshot⟩).head? = some 3 := by decide +kernel

/-- A notice ends; an OVERRUN answer ends; an answer from service ends with and without a request waiting. -/
theorem test_witness_end_of_frame :
    let s := busyLine State.reset
    let n : Notice := ⟨.fill, State.reset.snapshot⟩
    let waiting := { s with cl := { s.cl with holding := some ⟨2, .go⟩ } }
    let notice := { s with cl := { s.cl with line := some ⟨.notice n, 0⟩ } }
    let overrun := { s with cl := { s.cl with line := some ⟨.answer ⟨1, 1, .overrun, [], false⟩, 0⟩ } }
    (after .frameSent s).cl.inService = none ∧ (after .frameSent waiting).cl.inService = some ⟨2, .go⟩ ∧
      (after .frameSent notice).cl.inService = some ⟨1, .ident⟩ ∧ (after .frameSent notice).cl.line = none ∧
      (after .frameSent overrun).cl.inService = some ⟨1, .ident⟩ := by decide

/-- The arbiter: an answer before the notice, the notice alone, nothing, and a line in use. -/
theorem test_witness_arbiter :
    let n : Notice := ⟨.fill, State.reset.snapshot⟩
    let a : Answer := ⟨1, 1, .ok, [], true⟩
    let both := { State.reset with cl := { State.reset.cl with answers := [a], notice := some n } }
    let one := { State.reset with cl := { State.reset.cl with notice := some n } }
    (arbitrate both).cl.line = some ⟨.answer a, 0⟩ ∧ (arbitrate both).cl.notice = some n ∧
      (arbitrate one).cl.line = some ⟨.notice n, 0⟩ ∧ arbitrate State.reset = State.reset ∧
      arbitrate (busyLine both) = busyLine both := by decide

/-- The receiver at each of its phases (R2), a body of 1,024 bytes and one above, and the gap limit of 2,000. -/
theorem test_witness_receiver :
    let at_ (r : Receiver) : State := { State.reset with count := 2100, cl := { State.reset.cl with receiver := r, lastStop := 100 } }
    let next (r : Receiver) (b : Byte) : Receiver := (after (.byteReceived 2100 b true) (at_ r)).cl.receiver
    next .hunt 0xD1 = .sync ∧ next .hunt 0x2E = .hunt ∧ next .sync 0xD1 = .sync ∧ next .sync 0x2E = .header [] ∧
      next .sync 0 = .hunt ∧ next (.header []) 0 = .header [0] ∧ next (.header [0]) 4 = .header [0, 4] ∧
      next (.header [1]) 4 = .hunt ∧ next (.header [0, 0]) 1 = .header [0, 0, 1] ∧
      next (.header [0, 0, 1]) 9 = .check 1 9 [] none ∧ next (.header [2, 0, 1]) 9 = .body 2 1 9 [] ∧
      next (.body 2 1 9 []) 5 = .body 2 1 9 [5] ∧ next (.body 2 1 9 [5]) 6 = .check 1 9 [5, 6] none ∧
      next (.check 1 9 [] none) 7 = .check 1 9 [] (some 7) ∧
      (after (.byteReceived 2101 0x2E true) (at_ .sync)).cl.receiver = .hunt ∧
      (after (.byteReceived 2101 0xD1 true) (at_ .sync)).cl.receiver = .sync ∧
      (after (.byteReceived 2100 0x2E false) (at_ .sync)).cl.receiver = .hunt ∧
      (after .interByteGap (at_ .sync)).cl.receiver = .sync ∧
      (after .interByteGap { at_ .sync with count := 2101 }).cl.receiver = .hunt := by decide

/-- The check value of an IDENT request with tag 9, good and damaged. -/
theorem test_witness_receiver_check :
    let low : Byte := (crcBytes (crc16 [0, 0, 1, 9])).getD 0 0
    let high : Byte := (crcBytes (crc16 [0, 0, 1, 9])).getD 1 0
    let s : State := { State.reset with cl := { State.reset.cl with receiver := .check 1 9 [] (some low) } }
    crcBytes (crc16 (leBytes 2 0 ++ [1, 9] ++ [])) = [low, high] ∧
      statusOf (.byteReceived 0 high true) s = some .ok ∧
      (after (.byteReceived 0 (high + 1) true) s).cl.receiver = .hunt ∧
      statusOf (.byteReceived 0 (high + 1) true) s = none := by decide +kernel

/-! ### Settings -/

theorem test_witness_chanset :
    listening State.reset ∧
      reply (.chanset 5 7 0 0x8000 0x0800 1) State.reset = some (.clamped, [7, 1, 0, 0, 0x80, 0xFF, 0x07, 1]) ∧
      reply (.chanset 5 0 1 0x7000 0xF800 0) State.reset = some (.ok, [0, 1, 0, 0, 0x70, 0, 0xF8, 0]) ∧
      statusOf (.chanset 5 8 1 0x8000 0 0) State.reset = some .range ∧
      statusOf (.chanset 5 7 1 0x8000 0 2) State.reset = some .range ∧
      statusOf (.chanset 5 6 1 0x8000 0 1) State.reset = some .range ∧
      statusOf (.chanset 5 7 1 0x8000 0 1) (inState .armed (someRun .single .go)) = some .busy :=
  ⟨⟨rfl, rfl⟩, by decide⟩

theorem test_witness_inset :
    listening State.reset ∧ statusOf (.inset 5 0 1 0 0 0) State.reset = some .range ∧
      statusOf (.inset 5 13 1 0 0 0) State.reset = some .range ∧
      statusOf (.inset 5 12 3 0 0 0) State.reset = some .range ∧
      statusOf (.inset 5 12 2 2 0 0) State.reset = some .range ∧
      statusOf (.inset 5 12 2 1 6 0) State.reset = some .range ∧
      statusOf (.inset 5 12 2 1 5 25000) State.reset = some .ok ∧
      statusOf (.inset 5 1 1 0 0 25001) State.reset = some .clamped ∧
      statusOf (.inset 5 1 1 0 0 1) (inState .gap (someRun .repeated .go)) = some .busy ∧
      ((after (.inset 5 1 1 1 2 100) State.reset).ci.inputs[0]).settled = true :=
  ⟨⟨rfl, rfl⟩, by decide⟩

/-- An INJECTED input at rest and in a run, and one that is not INJECTED. -/
theorem test_witness_inject :
    let s := after .frameSent (after (.inset 5 12 2 0 0 0) State.reset)
    let r := { running plainEntry 1000 with ci := s.ci }
    listening s ∧ listening r ∧ statusOf (.inject 5 0 1) s = some .range ∧
      statusOf (.inject 5 13 1) s = some .range ∧ statusOf (.inject 5 12 2) s = some .range ∧
      statusOf (.inject 5 1 1) s = some .order ∧ statusOf (.inject 5 12 0) s = some .ok ∧
      ((after (.inject 5 12 1) s).ci.inputs[11]).settled = true ∧ (after (.inject 5 12 1) s).rs.records = [] ∧
      r.inRun = true ∧ r.ci.inputs[11].mode = .injected ∧ r.ci.inputs[11].settled = false :=
  ⟨⟨rfl, rfl⟩, ⟨rfl, rfl⟩, by decide +kernel⟩

theorem test_witness_ampon_ampoff :
    listening State.reset ∧ groupOfCode 1 = some .i ∧ statusOf (.ampon 5 2) State.reset = some .range ∧
      statusOf (.ampoff 5 2) State.reset = some .range ∧ reply (.ampon 5 1) State.reset = some (.ok, [1, 1]) ∧
      reply (.ampon 5 0) idleState = some (.ok, [0, 2]) ∧ reply (.ampoff 5 0) idleState = some (.ok, [0, 0]) ∧
      statusOf (.ampoff 5 0) (inState .armed (someRun .single .go)) = some .busy :=
  ⟨⟨rfl, rfl⟩, by decide⟩

/-- AMPON in READY and in FAULT drops a partial acknowledgment and changes nothing else (R206, R84). -/
theorem test_witness_ampon_drops_partial :
    let part (x : AmpGroup) : State := { idleState with al := ⟨{ x with receiver := [0x5A, 7] }, readyGroup⟩ }
    let fault := { readyGroup with state := .fault }
    (after (.ampon 5 0) (part readyGroup)).al.v = readyGroup ∧ (after (.ampon 5 0) (part fault)).al.v = fault ∧
      reply (.ampon 5 0) (part fault) = some (.ok, [0, 3]) := by decide +kernel

theorem test_witness_brkset :
    let set (d : Word) (side posC spring : Byte) : Instr :=
      .brkset 5 500000 500001 0 0 999 0 d side 32768 0 1 posC spring
    listening State.reset ∧ statusOf (set 0 2 0 0) State.reset = some .range ∧
      statusOf (set 0 1 2 0) State.reset = some .range ∧ statusOf (set 0 1 0 2) State.reset = some .range ∧
      statusOf (set 0 1 0 0) (inState .gap (someRun .repeated .go)) = some .busy ∧
      (after (set 49999 1 1 1) State.reset).bs.settings =
        ⟨⟨500000, 500000, 0⟩, 0, 1000, 0, 50000, .line, 32767, ⟨true, false, false⟩, false⟩ ∧
      (after (set 0 1 1 1) State.reset).bs.poles = ⟨.closed, .opened, .opened⟩ ∧
      (after (set 0 1 1 1) State.reset).bs.spring = .charging none ∧
      statusOf (set 0 1 1 1) State.reset = some .clamped ∧
      statusOf (.brkset 5 0 0 0 0 1000 0 50000 0 0 0 0 0 0) State.reset = some .ok :=
  ⟨⟨rfl, rfl⟩, by decide +kernel⟩

theorem test_witness_outset :
    listening State.reset ∧ statusOf (.outset 5 0 0 0) State.reset = some .range ∧
      statusOf (.outset 5 9 0 0) State.reset = some .range ∧ statusOf (.outset 5 8 13 0) State.reset = some .range ∧
      statusOf (.outset 5 8 11 8) State.reset = some .range ∧
      reply (.outset 5 8 12 8) State.reset = some (.ok, [8, 12, 0, 0]) ∧
      reply (.outset 5 1 2 7) State.reset = some (.ok, [1, 2, 0, 1]) ∧
      reply (.outset 5 1 11 7) State.reset = some (.ok, [1, 11, 7, 0]) ∧
      OutSource.ofCode 11 = some .stateBit ∧
      statusOf (.outset 5 1 2 7) (inState .gap (someRun .repeated .go)) = some .busy :=
  ⟨⟨rfl, rfl⟩, by decide⟩

/-! ### The state table -/

/-- An STWRITE body with one AFTER exit and one item; the given bytes are the index, the exit's target and the
item's upper time. -/
def entryBody (index target : Byte) (hi : Word) : List Byte :=
  [index, 1, 1] ++ List.replicate 112 0 ++ [0, 0] ++ List.replicate 4 0 ++ [0, 0, 0, 5] ++ List.replicate 8 0 ++
    [0, 10, 0, 0, 0, target, 0, 0] ++ [1, 0, 0, 0, 2, 0, 0, 0] ++ leBytes 4 hi.toNat

theorem test_witness_stwrite :
    listening State.reset ∧ statusOf (.stwrite 5 (entryBody 0 0 9)) State.reset = some .ok ∧
      statusOf (.stwrite 5 (entryBody 23 255 4000000001)) State.reset = some .clamped ∧
      statusOf (.stwrite 5 (entryBody 24 0 9)) State.reset = some .range ∧
      statusOf (.stwrite 5 (entryBody 0 24 9)) State.reset = some .range ∧
      statusOf (.stwrite 5 (entryBody 0 0 1)) State.reset = some .range ∧
      statusOf (.stwrite 5 (List.replicate 132 0)) State.reset = some .length ∧
      statusOf (.stwrite 5 (List.replicate 230 0)) State.reset = some .length ∧
      statusOf (.stwrite 5 (entryBody 0 0 9)) (inState .armed (someRun .single .go)) = some .active ∧
      statusOf (.stwrite 5 (entryBody 1 0 9)) (inState .armed (someRun .single .go)) = some .ok ∧
      reply (.stwrite 5 (entryBody 1 0 9)) State.reset = some (.ok, [1]) :=
  ⟨⟨rfl, rfl⟩, by decide +kernel⟩

/-- The fields of an entry at their offsets, in range and limited (R136, R204). -/
theorem test_witness_entry_read :
    let body := entryBody 23 255 4000000001
    (readEntry body).exits = [⟨.after 10, .finish, none⟩] ∧
      (readEntry body).items = [⟨.anyOpen, .expect, 2, 4000000000⟩] ∧ (readEntry body).decay = 0 ∧
      (readEntry body).pattern = 5 ∧ bodyWord body 149 = 4000000001 ∧ bodyByte body 138 = 255 ∧
      entryClamped body = true ∧ entryClamped (entryBody 0 0 9) = false ∧
      (readEntry body).channels[7] = channelGiven body 101 := by decide +kernel

/-- Every quantity of a channel at and beyond its limit. -/
theorem test_channel_quantities :
    let part (l : List Byte) : ChannelPart := readChannel ([0, 0, 0] ++ l) 0
    part [0xFF, 0x7F, 0x9F, 0x8C, 0x87, 0x13, 0, 0, 0, 0x80, 0x61, 0xEA, 1, 2] =
        ⟨32767, 35999, 5000, 32767, 60000, .keep, .holdDc⟩ ∧
      part [0, 0x80, 0xA0, 0x8C, 0x41, 0x42, 0x0F, 0, 0, 0, 0x60, 0xEA, 0, 1] =
        ⟨32767, 0, 1000000, 0, 60000, .set, .noDc⟩ := by decide +kernel

theorem test_witness_stread_stclear :
    listening idleState ∧ statusOf (.stread 5 24) idleState = some .range ∧
      statusOf (.stclear 5 24) idleState = some .range ∧ statusOf (.stread 5 23) idleState = some .empty ∧
      (reply (.stread 5 1) idleState).map (fun x => x.2.length) = some 133 ∧
      statusOf (.stclear 5 0) (inState .armed (someRun .single .go)) = some .active ∧
      statusOf (.stclear 5 1) (inState .armed (someRun .single .go)) = some .ok ∧
      (after (.stclear 5 1) idleState).st.entries[1] = none ∧
      entryInUse 0 (inState .running (someRun .single .go)).sq = true ∧
      entryInUse 0 (inState .gap (someRun .single .go)).sq = true ∧ entryInUse 0 idleState.sq = false :=
  ⟨⟨rfl, rfl⟩, by decide +kernel⟩

theorem test_witness_stread_body_writes_back :
    entryChecksOk (entryBody 23 255 4000000001) = true ∧
      ((readEntry (entryBody 23 255 4000000001)).bytes 23).length = 153 ∧
      readEntry ((readEntry (entryBody 23 255 4000000001)).bytes 23) =
        readEntry (entryBody 23 255 4000000001) := by decide +kernel

theorem test_witness_cntset :
    listening State.reset ∧ statusOf (.cntset 5 4 0 0) State.reset = some .range ∧
      statusOf (.cntset 5 3 5 0) State.reset = some .range ∧ statusOf (.cntset 5 3 1 0) State.reset = some .range ∧
      statusOf (.cntset 5 3 1 13) State.reset = some .range ∧
      statusOf (.cntset 5 3 4 24) State.reset = some .range ∧
      reply (.cntset 5 3 4 23) State.reset = some (.ok, [3, 4, 23]) ∧
      reply (.cntset 5 0 1 12) State.reset = some (.ok, [0, 1, 12]) ∧
      reply (.cntset 5 0 3 12) State.reset = some (.ok, [0, 3, 0]) ∧
      statusOf (.cntset 5 0 3 12) (inState .armed (someRun .single .go)) = some .busy :=
  ⟨⟨rfl, rfl⟩, by decide +kernel⟩

/-! ### The sequencer's requests -/

def runCommand (mode trigger : Byte) (second : Word) (first action : Byte) : Instr :=
  .run 5 mode 1 0 trigger second first 30000 action

/-- Every check of R146 at a boundary, in its order. -/
theorem test_witness_run_refused :
    let full := { idleState with rs := { ReportStore.reset with records := List.replicate 639 ⟨1, 0, 0, .clip 0 true none⟩ } }
    let timed := { idleState with tb := { TimeBase.reset with epoch := true, second := 7 } }
    listening idleState ∧ statusOf (runCommand 3 0 0 0 0) idleState = some .range ∧
      statusOf (runCommand 0 4 0 0 0) idleState = some .range ∧
      statusOf (runCommand 0 0 0 0 2) idleState = some .range ∧
      statusOf (runCommand 0 0 0 24 0) idleState = some .range ∧
      statusOf (runCommand 2 0 0 0 0) idleState = some .range ∧
      statusOf (runCommand 2 3 0 0 0) idleState = some .range ∧
      statusOf (runCommand 2 1 0 0 0) (inState .gap (someRun .repeated .go)) = some .busy ∧
      statusOf (runCommand 2 1 0 0 0) State.reset = some .notReady ∧
      statusOf (runCommand 2 1 0 2 0) idleState = some .empty ∧
      statusOf (runCommand 2 1 0 0 0) full = some .noRoom ∧
      statusOf (runCommand 0 3 8 0 0) idleState = some .noTime ∧
      statusOf (runCommand 0 3 7 0 0) timed = some .range ∧
      statusOf (runCommand 0 3 8 0 0) timed = some .clamped :=
  ⟨⟨rfl, rfl⟩, by decide +kernel⟩

/-- An armed run with its clamps (a repeat count of 1, a frequency of 30,000 mHz), and one that starts at once. -/
theorem test_witness_run_accepted :
    reply (runCommand 1 1 0 0 0) idleState = some (.clamped, [1]) ∧
      (after (runCommand 1 1 0 0 0) idleState).sq.settings = some ⟨.repeated, 2, 0, .go, 0, 0, 40000, .abort⟩ ∧
      (after (runCommand 1 1 0 0 0) idleState).sq.remainder = 2 ∧
      reply (.run 5 0 1 9 0 0 0 50000 1) idleState = some (.ok, [2]) := by decide +kernel

theorem test_witness_halt :
    listening (running plainEntry 1000) ∧ statusOf (.halt 5) (running plainEntry 1000) = some .ok ∧
      (after (.halt 5) (running plainEntry 1000)).sq.lastOutcome = some .halted ∧
      (after (.halt 5) (inState .armed (someRun .single .go))).sq.state = .idle ∧
      (after (.halt 5) (inState .gap (someRun .repeated .go))).sq.settings = none ∧
      statusOf (.halt 5) idleState = some .order :=
  ⟨⟨rfl, rfl⟩, by decide +kernel⟩

theorem test_witness_go :
    let armed := inState .armed (someRun .single .go)
    let full := { armed with rs := { ReportStore.reset with records := List.replicate 639 ⟨1, 0, 0, .clip 0 true none⟩ } }
    let waiting := running (withExits [⟨.go, .state 1, some (.set 3)⟩]) 1000
    listening armed ∧ listening waiting ∧ statusOf (.go 5) idleState = some .order ∧
      statusOf (.go 5) (inState .gap (someRun .repeated .go)) = some .order ∧
      statusOf (.go 5) (inState .pointing (someRun .repeated .go)) = some .order ∧
      statusOf (.go 5) (inState .armed (someRun .single .sync)) = some .order ∧
      statusOf (.go 5) armed = some .ok ∧ (after (.go 5) armed).sq.state = .running ∧
      statusOf (.go 5) full = some .noRoom ∧ (after (.go 5) full).sq.state = .idle ∧
      statusOf (.go 5) waiting = some .ok ∧
      (after (.go 5) waiting).sq.taken = some ⟨.state 1, 0, 100, none⟩ ∧ (after (.go 5) waiting).sq.marks = 8 :=
  ⟨⟨rfl, rfl⟩, ⟨rfl, rfl⟩, by decide +kernel⟩

/-! ### The time base -/

/-- A previous mark at count 1,000,000 and E of 10,000,000: the window is 10,995,000..11,005,000. -/
def marked (state : TbState) (count : Nat) : State :=
  { State.reset with count := count, tb := { TimeBase.reset with prevMark := some 1000000, state := state, second := 4 } }

def calibrating (prior : TbState) (phase : CalPhase) (count : Nat) : State :=
  { marked .calibrating count with
    tb := { (marked .calibrating count).tb with cal := some ⟨2, prior, phase, 1⟩ } }

theorem test_witness_tcal :
    listening (marked .locked 5) ∧ statusOf (.tcal 5 0) (marked .locked 5) = some .clamped ∧
      statusOf (.tcal 5 64) (marked .locked 5) = some .ok ∧ statusOf (.tcal 5 65) (marked .locked 5) = some .clamped ∧
      (after (.tcal 5 64) (marked .locked 5)).tb.cal = some ⟨64, .locked, .waiting, 0⟩ ∧
      (after (.tcal 5 1) (calibrating .holdover (.counting 3) 5)).tb.cal = some ⟨1, .holdover, .waiting, 0⟩ :=
  ⟨⟨rfl, rfl⟩, by decide⟩

theorem test_witness_tcalx_tsec :
    statusOf (.tcalx 5) (marked .locked 5) = some .order ∧
      statusOf (.tcalx 5) (calibrating .locked .waiting 5) = some .ok ∧
      (after (.tcalx 5) (calibrating .locked .waiting 5)).tb.state = .locked ∧
      (after (.tsec 5 0xFFFFFFFF) (marked .free 5)).tb.armedSecond = some 4294967295 := by decide

/-- Both ends of the acceptance window, one count outside each, no previous mark, and a relock. -/
theorem test_witness_pps_edge :
    (after .ppsEdge (marked .free 10995000)).tb.prevMark = some 10995000 ∧
      (after .ppsEdge (marked .free 11005000)).tb.second = 5 ∧
      (after .ppsEdge (marked .free 10994999)).tb = (marked .free 10994999).tb ∧
      (after .ppsEdge (marked .free 11005001)).tb.prevMark = some 1000000 ∧
      (after .ppsEdge { State.reset with count := 3 }).tb.prevMark = some 3 ∧
      (let s := marked .holdover 11000000
       (after .ppsEdge { s with tb := { s.tb with pulseRun := 1 } }).tb.state = .locked) ∧
      (after .ppsEdge (marked .holdover 11000000)).tb.state = .holdover := by decide +kernel

/-- A wait for second `n`, at a count. -/
def awaitingSecond (n count : Nat) : State :=
  { inState .armed { someRun .single .atSecond with second := n } with
    count := count, tb := { (marked .locked count).tb with epoch := true } }

/-- An edge under an armed AT_SECOND run: below the second, at it with and without room, and beyond it (R149, R150). -/
theorem test_witness_pps_edge_armed :
    let full (s : State) : State :=
      { s with rs := { ReportStore.reset with records := List.replicate 639 ⟨1, 0, 0, .clip 0 true none⟩ } }
    let at_ (n : Nat) : State := awaitingSecond n 11000000
    (after .ppsEdge (at_ 6)).sq.state = .armed ∧ (after .ppsEdge (at_ 5)).sq.state = .running ∧
      (after .ppsEdge (at_ 5)).tb.latch = some ⟨11000000, 0⟩ ∧ (after .ppsEdge (full (at_ 5))).sq.state = .idle ∧
      (after .ppsEdge (at_ 4)).sq = (waitEnded (at_ 4)).sq ∧ awaitsSecond (at_ 4) :=
  ⟨by decide +kernel, by decide +kernel, by decide +kernel, by decide +kernel, by decide +kernel,
    ⟨rfl, _, rfl, rfl⟩⟩

/-- The opening pulse of a calibration and a pulse it counts (R24). -/
theorem test_witness_calibration_pulses :
    let counting := { calibrating .free (.counting 1000000) 11000000 with
      tb := { (calibrating .free .waiting 11000000).tb with cal := some ⟨3, .free, .counting 1000000, 1⟩ } }
    (after .ppsEdge (calibrating .free .waiting 11000000)).tb.cal = some ⟨2, .free, .counting 11000000, 1⟩ ∧
      (after .ppsEdge counting).tb.cal = some ⟨3, .free, .counting 1000000, 2⟩ ∧
      ¬ awaitsSecond counting := by
  unfold awaitsSecond
  decide +kernel

/-- An armed second at an edge inside the window and at a realigning one. -/
theorem test_witness_armed_second :
    let s (count : Nat) : State := { marked .free count with tb := { (marked .free count).tb with armedSecond := some 99, pulseRun := 1 } }
    (after .ppsEdge (s 11000000)).tb.second = 99 ∧ (after .ppsEdge (s 11000000)).tb.pulseRun = 2 ∧
      (after .ppsEdge (s 7000000)).tb.second = 99 ∧ (after .ppsEdge (s 7000000)).tb.pulseRun = 1 ∧
      (after .ppsEdge (s 7000000)).tb.epoch = true ∧ (after .ppsEdge (s 7000000)).tb.prevMark = some 7000000 ∧
      (after .ppsEdge (s 7000000)).rs.records = [⟨1, 0, 0, .time .epochSet none (some 99)⟩] ∧
      (after .ppsEdge { calibrating .free .waiting 7000000 with
        tb := { (calibrating .free .waiting 7000000).tb with armedSecond := some 9 } }).tb.cal =
          some ⟨2, .free, .counting 7000000, 1⟩ := by decide +kernel

theorem test_witness_interval :
    let s (count : Nat) : State := { marked .locked count with tb := { (marked .locked count).tb with c := -3250 } }
    (s 11000000).tb.accepts 11000000 = true ∧ (after .ppsEdge (s 11000000)).tb.interval = 9999967 ∧
      (after .internalMark (s 11005001)).tb.interval = 9999967 := by decide +kernel

/-- The closing of the window: before it nothing; one internal mark keeps LOCKED, the second leads to HOLDOVER. -/
theorem test_witness_internal_mark :
    let s (run : Nat) : State :=
      { marked .locked 11005001 with tb := { (marked .locked 11005001).tb with internalRun := run, second := 4294967295 } }
    (after .internalMark (marked .locked 11005000)).tb.prevMark = some 1000000 ∧
      (after .internalMark (s 0)).tb.prevMark = some 11000000 ∧ (after .internalMark (s 0)).tb.second = 0 ∧
      (after .internalMark (s 0)).tb.state = .locked ∧ (after .internalMark (s 1)).tb.state = .holdover ∧
      (after .internalMark (s 1)).rs.records = [⟨1, 0, 0, .time .holdover none (some 0)⟩] := by decide +kernel

/-- An internal mark that starts an armed AT_SECOND run with T0 at the mark, 5,001 counts before; one below and one
beyond the second (R149, R153). -/
theorem test_witness_internal_mark_armed :
    let t := after .internalMark (awaitingSecond 5 11005001)
    t.sq.state = .running ∧ t.tb.latch = some ⟨11000000, 0⟩ ∧ t.ws.nextGrid = 11005500 ∧
      (t.rs.records.head?.map (·.body)) = some (.runStart .single .atSecond 0 50000 0 (some 5) true) ∧
      (after .internalMark (awaitingSecond 6 11005001)).sq.state = .armed ∧
      (after .internalMark (awaitingSecond 4 11005001)).sq.state = .idle := by decide +kernel

/-- A closing pulse over one second that ends at count 11,000,000: adopted in IDLE, up to 100,000 ppb; pending in
GAP; rejected above. -/
theorem test_witness_closing_pulse :
    let s (opening : Nat) (q : SeqState) : State :=
      { marked .calibrating 11000000 with
        tb := { (marked .calibrating 11000000).tb with cal := some ⟨1, .free, .counting opening, 0⟩ }
        sq := { Sequencer.reset with state := q } }
    (s 0 .idle).tb.accepts 11000000 = true ∧ (after .closingPulse (s 999900 .idle)).tb.c = 10000 ∧
      (after .closingPulse (s 999900 .gap)).tb.pendingC = some 10000 ∧
      (after .closingPulse (s 999900 .gap)).tb.c = 0 ∧
      (after .closingPulse (s 999000 .idle)).tb.c = 100000 ∧
      (after .closingPulse (s 998999 .idle)).tb.state = .free ∧
      (after .closingPulse (s 998999 .idle)).rs.records = [⟨1, 0, 0, .time .calRejected (some 100100) none⟩] := by
  decide +kernel

/-- A result found while a run is armed is adopted at that run's start (R28, R30), and the run latches the old correction
(R151). -/
theorem test_witness_result_held :
    let armed := inState .armed (someRun .triggered .go)
    let s := { armed with
      count := 11000000
      tb := { (marked .calibrating 11000000).tb with c := 7, cal := some ⟨1, .free, .counting 999900, 0⟩ } }
    let t := after .closingPulse s
    let u := startRun 11000000 false t
    ¬ awaitsSecond s ∧ t.tb.pendingC = some 10000 ∧ t.sq.resultHeld = true ∧ u.sq.resultHeld = false ∧
      u.tb = { t.tb with c := 10000, pendingC := none, latch := some ⟨11000000, 7⟩ } ∧
      (startRun 11000000 false { t with sq := { t.sq with resultHeld := false } }).tb.latch = some ⟨11000000, 10000⟩ := by
  unfold awaitsSecond
  exact ⟨fun ⟨_, r, h1, h2⟩ => (by cases h1; cases h2), by decide +kernel⟩

/-- An armed AT_SECOND run under every kind of mark: the run starts, or the wait ends for want of room or because the
second is missed (R149, R150). -/
theorem test_witness_armed_marks :
    let in_ (state : TbState) (s : State) : State := { s with tb := { s.tb with state := state, pulseRun := 1 } }
    let cal (phase : CalPhase) (k : Nat) (n : Nat) : State :=
      let s := awaitingSecond n 11000000
      { s with tb := { s.tb with state := .calibrating, cal := some ⟨k, .locked, phase, 0⟩ } }
    let internal (n : Nat) : State :=
      let s := awaitingSecond n 11005001
      { s with tb := { s.tb with internalRun := 1 } }
    let closed := after .closingPulse (cal (.counting 999900) 1 5)
    let epoch := { awaitingSecond 9 11000000 with tb := { (awaitingSecond 9 11000000).tb with armedSecond := some 9 } }
    (after .ppsEdge (in_ .holdover (awaitingSecond 5 11000000))).sq.state = .running ∧
      (after .ppsEdge (in_ .holdover (awaitingSecond 5 11000000))).tb.state = .locked ∧
      (after .ppsEdge (cal .waiting 2 5)).sq.state = .running ∧
      (after .ppsEdge (cal (.counting 999900) 2 4)).sq.state = .idle ∧
      (after .internalMark (internal 5)).tb.state = .holdover ∧
      (after .internalMark (internal 5)).sq.state = .running ∧
      (after .internalMark (internal 4)).sq.state = .idle ∧
      closed.sq.state = .running ∧ closed.tb.c = 10000 ∧ closed.tb.latch = some ⟨11000000, 0⟩ ∧
      (after .closingPulse (cal (.counting 999900) 1 6)).sq.resultHeld = true ∧
      (after .closingPulse (cal (.counting 999900) 1 4)).sq.state = .idle ∧
      (after .ppsEdge epoch).sq.state = .running ∧ (after .internalMark (in_ .calibrating (internal 6))).tb.state = .calibrating := by
  decide +kernel

/-- The hypotheses of the statements about marks are met with such a run armed. -/
theorem test_witness_mark_handed :
    let s := awaitingSecond 5 11000000
    let t := { s with tb := { s.tb with second := 5 } }
    awaitsSecond t ∧ markHanded 11000000 false t (startRun 11000000 false t) ∧
      markHanded 11000000 false { t with tb := { t.tb with second := 4 } } { t with tb := { t.tb with second := 4 } } ∧
      markHanded 11000000 false { t with tb := { t.tb with second := 6 } }
        (waitEnded { t with tb := { t.tb with second := 6 } }) :=
  ⟨⟨rfl, _, rfl, rfl⟩,
    ⟨fun h => absurd ⟨rfl, _, rfl, rfl⟩ h, fun r _ hr _ => (by cases hr; exact ⟨fun h => absurd h (by decide), fun _ _ => rfl,
      fun _ h => absurd h (by decide), fun h => absurd h (by decide)⟩)⟩,
    ⟨fun h => absurd ⟨rfl, _, rfl, rfl⟩ h, fun r _ hr _ => (by cases hr; exact ⟨fun _ => rfl, fun h => absurd h (by decide),
      fun h => absurd h (by decide), fun h => absurd h (by decide)⟩)⟩,
    ⟨fun h => absurd ⟨rfl, _, rfl, rfl⟩ h, fun r _ hr _ => (by cases hr; exact ⟨fun h => absurd h (by decide),
      fun h => absurd h (by decide), fun h => absurd h (by decide), fun _ => rfl⟩)⟩⟩

/-- A closing pulse under an armed second: EPOCH_SET, then CAL_DONE or CAL_REJECTED; PPS_EDGE and CLOSING_PULSE agree. -/
theorem test_witness_closing_pulse_armed_second :
    let s (opening : Nat) : State :=
      { marked .calibrating 11000000 with
        tb := { (marked .calibrating 11000000).tb with
          cal := some ⟨1, .free, .counting opening, 0⟩, armedSecond := some 99 } }
    let t := after .closingPulse (s 999900)
    t.tb.second = 99 ∧ t.tb.c = 10000 ∧ t.tb.epoch = true ∧ t.tb.armedSecond = none ∧ t = after .ppsEdge (s 999900) ∧
      t.rs.records.map (·.body) =
        [.time .epochSet none (some 99), .time .calDone (some 10000) none] ∧
      (after .ppsEdge (s 998999)).rs.records.map (·.body) =
        [.time .epochSet none (some 99), .time .calRejected (some 100100) none] := by decide +kernel

theorem test_witness_calibration_fails :
    let armed (s : State) : State := { s with tb := { s.tb with armedSecond := some 9 } }
    (after .ppsEdge (calibrating .locked .waiting 7000000)).tb.state = .locked ∧
      (after .ppsEdge (calibrating .locked .waiting 7000000)).tb.cal = none ∧
      (after .ppsEdge (armed (calibrating .holdover (.counting 5) 7000000))).tb.state = .holdover ∧
      (after .internalMark (calibrating .locked .waiting 11005001)).tb.state = .holdover ∧
      (after .internalMark (calibrating .free .waiting 11005001)).tb.state = .free ∧
      (after .internalMark (calibrating .locked .waiting 11005001)).rs.records =
        [⟨1, 0, 0, .time .calFailed none none⟩, ⟨2, 0, 0, .time .holdover none (some 5)⟩] ∧
      (after .ppsEdge (armed (calibrating .holdover (.counting 5) 7000000))).rs.records =
        [⟨1, 0, 0, .time .epochSet none (some 9)⟩, ⟨2, 0, 0, .time .calFailed none none⟩] := by decide +kernel

/-! ### Resets -/

theorem test_witness_resets :
    let s := { State.reset with resetLine := true }
    (after .powerOn (marked .locked 5)).tb = TimeBase.reset ∧ (after .resetLineAsserted (marked .locked 5)).count = 0 ∧
      (after .resetLineReleased s).resetLine = false ∧ s.resetLine = true ∧ after .ppsEdge s = s := by decide

/-! ### The contact inputs -/

/-- BI1 as a TIMING input with this qualifier and window. -/
def contact (q : Qualifier) (window : Nat) (s : State) : State :=
  { s with ci := { s.ci with
      nextSample := s.count + 100
      inputs := s.ci.inputs.set 0 { ContactInput.reset with mode := .contact, qualifier := q, window := window } } }

/-- A sample that begins a candidate, one that goes on with it, one that counts a bounce and the window-end sample,
whose bounce is the window end's. -/
theorem test_witness_contact_sample :
    let due (s : State) : State := { s with ci := { s.ci with nextSample := s.count } }
    ((after (.contactSample 1 true) (due (contact .steady 0 State.reset))).ci.inputs[0]).qualifier = .candidate 0 [true] ∧
      ((after (.contactSample 0 true) (due (contact .steady 0 State.reset))).ci.inputs[0]).qualifier = .steady ∧
      ((after (.contactSample 0 true) (due (contact (.candidate 0 [true, true]) 0 State.reset))).ci.inputs[0]).qualifier =
        .candidate 0 [true, true, false] ∧
      ((after (.contactSample 1 true) (due (contact (.window 90) 0 State.reset))).ci.inputs[0]).bounces = 1 ∧
      ((after (.contactSample 1 true) (due (contact (.window 0) 0 State.reset))).ci.inputs[0]).bounces = 0 ∧
      (after (.contactSample 1 true) State.reset).ci.sync.qualifier = .candidate 0 [true] ∧
      (after (.contactSample 1 true) State.reset).ci.nextSample = 100 := by decide

/-- A glitch, an edge with no window and one with a window at rest; a SYNC IN edge. -/
theorem test_witness_qualification :
    let glitch := contact (.candidate 0 [true, false, false]) 0 State.reset
    let edge := contact (.candidate 0 [true, false, true]) 0 State.reset
    let long := contact (.candidate 0 [true, true, true]) 25000 State.reset
    let sync (level : Bool) : State := { State.reset with ci := { ContactInputs.reset with
      sync := { SyncInput.reset with settled := level, qualifier := .candidate 0 [true, true, true] } } }
    ((after (.qualification 1) glitch).ci.inputs[0]).glitches = 1 ∧
      ((after (.qualification 1) edge).ci.inputs[0]).settled = true ∧
      ((after (.qualification 1) edge).ci.inputs[0]).qualifier = .steady ∧
      ((after (.qualification 1) long).ci.inputs[0]).qualifier = .window 250000 ∧
      (after (.qualification 0) (sync false)).ci.sync.settled = true ∧
      (after (.qualification 0) (sync true)).ci.sync.glitches = 1 ∧ edge.inRun = false ∧
      (contact (.candidate 0 [true, true, true]) 5 (running plainEntry 1000)).inRun = true := by decide +kernel

/-- SYNC IN with an ACTIVE edge ripe, its first candidate sample at a count. -/
def syncEdge (first : Nat) (s : State) : State :=
  { s with ci := { s.ci with sync := { SyncInput.reset with qualifier := .candidate first [true, true, false] } } }

/-- A SYNC IN edge where a run waits for it, with and without room; in RUNNING; and in POINTING (R50, R148). -/
theorem test_witness_sync_edge :
    let armed := { syncEdge 600 (inState .armed (someRun .single .sync)) with count := 900 }
    let full := { armed with rs := { ReportStore.reset with records := List.replicate 639 ⟨1, 0, 0, .clip 0 true none⟩ } }
    let run := syncEdge 600 { running (withExits [⟨.sync, .state 1, none⟩]) 1500 with count := 900 }
    let pointing := { run with sq := { run.sq with state := .pointing } }
    let bodies (s : State) : List RecordBody := s.rs.records.map (·.body)
    let t := after (.qualification 0) armed
    t.sq.state = .running ∧ t.tb.latch = some ⟨600, 0⟩ ∧ t.ws.nextGrid = 1100 ∧ t.ci.sync.pendingEdge = none ∧
      (bodies t).getLast? = some (.inputEdge 0 .active 0 true 0 0 false) ∧
      (after (.qualification 0) full).sq.state = .idle ∧ (after (.qualification 0) full).ci.sync.pendingEdge = none ∧
      (after (.qualification 0) run).sq.taken = some ⟨.state 1, 0, 60, none⟩ ∧
      bodies (after (.qualification 0) run) = [.inputEdge 0 .active 60 true 0 0 false] ∧
      (after (.qualification 0) pointing).sq.taken = none ∧
      bodies (after (.qualification 0) pointing) = [.inputEdge 0 .active 60 true 0 0 false] := by decide +kernel

/-- An ACTIVE edge of a trip role and one of a close role in a run, in every order of its consumers (R43, R44). -/
theorem test_witness_edges_reach_the_breaker :
    let s := running plainEntry 1000
    let opened := { s with bs := { s.bs with poles := ⟨.closed, .opened, .closed⟩ } }
    opened.inRun = true ∧ ∀ order : Fin 6,
      (deliverInOrder order 1 .trip3P .active 90 opened).bs.poles = ⟨.tripping 90, .opened, .tripping 90⟩ ∧
        (deliverInOrder order 1 .close .active 90 opened).bs.poles = ⟨.closed, .closing 90, .closed⟩ ∧
        deliverInOrder order 1 .timing .active 90 opened = opened ∧
        deliverInOrder order 1 .trip3P .inactive 90 opened = opened := by decide +kernel

/-- The end of a window with the level kept and with the level gone back (the window ends at this sample). -/
theorem test_witness_window_end :
    let s := contact (.window 1000) 50 { State.reset with count := 1000 }
    let back := { s with ci := { s.ci with inputs := s.ci.inputs.set 0 { s.ci.inputs[0] with settled := true } } }
    ((after (.windowEnd 1) s).ci.inputs[0]).qualifier = .steady ∧
      ((after (.windowEnd 1) back).ci.inputs[0]).settled = false ∧
      ((after (.windowEnd 1) back).ci.inputs[0]).qualifier = .window 1500 ∧
      after (.windowEnd 1) { s with count := 999 } = { s with count := 999 } := by decide +kernel

/-- A window end in a run with a bounce at its own sample: the record with that bounce; and one whose level has gone
back. -/
theorem test_witness_window_end_in_run :
    let s := contact (.window 1000) 50 (running plainEntry 1000)
    let x : ContactInput := { s.ci.inputs[0] with
      settled := true, bounces := 3, history := ⟨false, true, true⟩
      pendingEdge := some ⟨.active, 60, false, 1, false⟩ }
    let u := after (.windowEnd 1) (putInput 0 x s)
    s.inRun = true ∧ (u.rs.records.map (·.body)) = [.inputEdge 1 .active 60 false 1 4 false] ∧
      u.ci.inputs[0] = { x with bounces := 4, pendingEdge := none, qualifier := .steady } ∧
      presentMajority .activeClosed ⟨false, false, true⟩ = false := by decide +kernel

/-- BI1 with role TRIP_A in a run whose sample 0 lies at the present count, 0, and has not been taken; opening time 0. -/
def atSampleZero (e : Entry) (x : ContactInput) : State :=
  let s := running e 0
  { s with
    ci := { s.ci with nextSample := 100, inputs := s.ci.inputs.set 0 { x with role := .tripA } }
    bs := { s.bs with settings := { s.bs.settings with opening := ⟨0, 0, 0⟩ } }
    sq := { s.sq with entrySample := true } }

/-- R117: a trip command at the count of sample 0, by each of its three rows, finds sample 0 taken with the initial
positions, and its opening time of 0 expires at sample 1; a TIMING input's edge leaves sample 0 to the grid instant. -/
theorem test_witness_command_at_sample_zero :
    let ripe := atSampleZero plainEntry
      { ContactInput.reset with mode := .contact, window := 0, qualifier := .candidate 0 [true, true, true] }
    let window := atSampleZero plainEntry
      { ContactInput.reset with mode := .contact, qualifier := .window 0, history := ⟨true, true, true⟩ }
    let injected := atSampleZero plainEntry { ContactInput.reset with mode := .injected }
    let timing := contact (.candidate 0 [true, true, true]) 0 (running plainEntry 0)
    let first := firstSampleFirst 0 (qualifiesActive 0 ripe) ripe
    commandWaits 0 ripe ∧ commandWaits 0 window ∧ commandWaits 0 injected ∧ rechecksActive 0 window = true ∧
      first.inRun = true ∧ first.bs.poles = ⟨.closed, .closed, .closed⟩ ∧ first.ws.nextGrid = 500 ∧
      firstSampleFirst 0 true timing = timing ∧
      (∀ order : Fin 6,
        let t := deliverInOrder order 1 .tripA .active 0 first
        t.bs.poles.a = .tripping 0 ∧ (after .gridInstant { t with count := 500 }).bs.poles.a = .opened) ∧
      decrementDue 2 (.qualification 1) { ripe with
        st := { ripe.st with sources := ripe.st.sources.set 2 .tripAccepted }
        sq := { ripe.sq with counters := ripe.sq.counters.set 2 1 } } = true := by
  refine ⟨⟨by decide, rfl, rfl, 0, rfl⟩, ⟨by decide, rfl, rfl, 0, rfl⟩, ⟨by decide, rfl, rfl, 0, rfl⟩, ?_⟩
  decide +kernel

/-- R117, R43: where sample 0 ends the run (an entry test into an EMPTY state), the edge at its count comes after the run. -/
theorem test_witness_sample_zero_ends_the_run :
    let s := atSampleZero (withExits [⟨.count 0, .state 5, none⟩]) { ContactInput.reset with mode := .injected }
    let t := after (.inject 5 1 1) s
    commandWaits 0 s ∧ t.inRun = false ∧ t.sq.lastOutcome = some .table ∧ t.ci.inputs[0].settled = true ∧
      t.ci.inputs[0].pendingEdge = none ∧ t.bs.poles = ⟨.closed, .closed, .closed⟩ :=
  ⟨⟨by decide, rfl, rfl, 0, rfl⟩, by decide +kernel⟩

/-- R48 at a window end: a run end taken before it writes the bounces without the last sample's. -/
theorem test_run_end_before_window_end :
    let s := contact (.window 1000) 50 (running plainEntry 1000)
    let x : ContactInput := { s.ci.inputs[0] with
      settled := true, bounces := 3, history := ⟨true, true, true⟩
      pendingEdge := some ⟨.active, 60, false, 1, false⟩ }
    let t := putInput 0 x { s with ci := { s.ci with nextSample := 1000 } }
    let u := runEnd .halted (after (.contactSample 0 false) t)
    (u.rs.records.map (·.body)).head? = some (.inputEdge 1 .active 60 false 1 3 false) := by decide +kernel

/-! ### The breaker simulator -/

/-- A run at run time 100 µs with these poles and settings. -/
def withPoles (poles : PerPole Position) (change : BreakerSettings → BreakerSettings) : State :=
  { running plainEntry 1000 with
    bs := { Breaker.reset with active := true, poles := poles, settings := change BreakerSettings.reset } }

theorem test_witness_breaker_commands :
    let s := withPoles ⟨.closed, .closing 30, .opened⟩ id
    let lone := withPoles ⟨.closed, .opened, .opened⟩ id
    (tripPole 90 s .a).bs.poles = ⟨.tripping 90, .closing 30, .opened⟩ ∧
      (tripPole 90 s .b).rs.records = [⟨3, 1, 90, .breaker (.pole .b) .tripFree (some 60)⟩] ∧
      tripPole 90 s .c = s ∧ (closeBreaker 90 s).bs = s.bs ∧
      (closeBreaker 90 lone).bs.poles = ⟨.closed, .closing 90, .closing 90⟩ ∧
      (closeBreaker 90 lone).bs.spring = .charging (some 90) ∧
      (closeBreaker 91 { lone with bs := { lone.bs with spring := .charging (some 90) } }).rs.records =
        [⟨3, 1, 91, .breaker .mechanism .closeBlocked none⟩] := by decide +kernel

/-- Each timed operation at the sample at which it ends, and one microsecond too early. -/
theorem test_witness_timed_operations :
    let parting := withPoles ⟨.tripping 60, .closed, .closed⟩ fun x => { x with opening := ⟨40, 40, 40⟩ }
    let early := withPoles ⟨.tripping 61, .closed, .closed⟩ fun x => { x with opening := ⟨40, 40, 40⟩ }
    let arcing := withPoles ⟨.closed, .arcing 60, .closed⟩ fun x => { x with arcing := 40 }
    let closing := withPoles ⟨.closed, .closed, .closing 60⟩ fun x => { x with closing := 40 }
    let spring := withPoles ⟨.closed, .closed, .closed⟩ fun x => { x with charge := 40 }
    let charging := { spring with bs := { spring.bs with spring := .charging (some 60) } }
    sampleHere parting ∧ sampleHere arcing ∧ sampleHere closing ∧ sampleHere charging ∧
      (after (.contactsParted .a) parting).bs.poles.a = .opened ∧ after (.contactsParted .a) early = settle early ∧
      (after (.interruptedForced .b) arcing).bs.poles.b = .opened ∧
      (after (.closingExpiry .c) closing).bs.poles.c = .closed ∧ (after .springCharged charging).bs.spring = .charged :=
  ⟨⟨rfl, rfl, rfl, rfl⟩, ⟨rfl, rfl, rfl, rfl⟩, ⟨rfl, rfl, rfl, rfl⟩, ⟨rfl, rfl, rfl, rfl⟩, by decide +kernel⟩

/-- An arc that crosses zero, one that does not, and one just parted; the close of the last pole. -/
theorem test_witness_interruption :
    let wave (aFix sPrev : Int) (s : State) : State :=
      let x : LiveRecord := { LiveRecord.cleared with theta := 0x40000000, aFix := aFix * 65536, sPrev := sPrev }
      { s with ws := { s.ws with live := s.ws.live.set 4 x } }
    let arcing := withPoles ⟨.arcing 60, .closed, .closed⟩ id
    let parting := withPoles ⟨.tripping 60, .closed, .closed⟩ fun x => { x with opening := ⟨40, 40, 40⟩ }
    let closing := withPoles ⟨.closing 60, .closed, .closed⟩ fun x => { x with closing := 40 }
    plainSample (wave 5 (-1) arcing) ∧ arcCrosses .a (wave 5 (-1) arcing) ∧ ¬ arcCrosses .a (wave 5 1 arcing) ∧
      (after .gridInstant (wave 5 (-1) arcing)).bs.poles.a = .opened ∧
      (after .gridInstant (wave 5 1 arcing)).bs.poles.a = .arcing 60 ∧
      (after (.contactsParted .a) (wave 5 1 parting)).bs.poles.a = .arcing 100 ∧
      ((after .gridInstant (wave 5 (-1) arcing)).rs.records.map (·.body)) =
        [.breaker (.pole .a) .interrupted (some 40)] ∧
      ((breakerExpiries 100 closing).rs.records.map (·.body)) =
        [.breaker (.pole .a) .closed (some 40), .breaker .mechanism .allClosed none] :=
  ⟨⟨⟨rfl, rfl, rfl, rfl⟩, rfl, rfl⟩, by unfold arcCrosses; decide +kernel⟩

/-- The breaker events of a sample, by its positions before and after (R113, R114), and what of them the assessment unit
judges (R173). -/
theorem test_witness_sample_events :
    let events (s : State) : List BreakerEvent := (computeSample 100 s).2.2
    let forced := withPoles ⟨.arcing 60, .arcing 60, .arcing 60⟩ fun x => { x with arcing := 40 }
    let one := withPoles ⟨.arcing 60, .closed, .opened⟩ fun x => { x with arcing := 40 }
    let closing := withPoles ⟨.closing 60, .closed, .closed⟩ fun x => { x with closing := 40 }
    let late := withPoles ⟨.closed, .closing 99, .opened⟩ fun x => { x with discrepancy := 50 }
    let tripped := { late with bs := { late.bs with discrepancy := .timing 50 } }
    let visit : Visit := ⟨0, 1, 10, [⟨⟨.anyOpen, .expect, 1, 99⟩, none, none⟩]⟩
    let s := { forced with asmt := ⟨some visit, 0, 0⟩ }
    events forced = [.poleOpen .a, .poleOpen .b, .poleOpen .c, .anyOpen, .allOpen] ∧ events one = [.poleOpen .a] ∧
      events closing = [.allClosed] ∧ events tripped = [.poleOpen .b, .discrepancyTrip] ∧
      (assessBreakerEvents [.poleOpen .a, .allOpen, .discrepancyTrip, .closeRefused, .allClosed] 100 100 s) = s ∧
      (after .gridInstant s).asmt.pass = 1 := by decide +kernel

theorem test_witness_discrepancy :
    let s (poles : PerPole Position) := withPoles poles fun x => { x with discrepancy := 50 }
    let timing (s : State) : State := { s with bs := { s.bs with discrepancy := .timing 50 } }
    let t := timing (s ⟨.closed, .closing 99, .opened⟩)
    let arcing := timing (s ⟨.closed, .arcing 60, .opened⟩)
    sampleHere t ∧ sampleHere arcing ∧ poleOpen .b t ∧ poleOpen .c arcing ∧
      (after .discrepancyTrip t).bs.poles = ⟨.tripping 100, .opened, .opened⟩ ∧
      (after .discrepancyTrip t).bs.discrepancy = .spent 50 ∧
      (after .discrepancyTrip arcing).bs.poles = ⟨.tripping 100, .opened, .opened⟩ :=
  ⟨⟨rfl, rfl, rfl, rfl⟩, ⟨rfl, rfl, rfl, rfl⟩, Or.inr ⟨99, rfl⟩, Or.inl rfl, by decide +kernel⟩

/-- The trip while every pole that conducts is ARCING and none is quenched. -/
theorem test_witness_discrepancy_arcing :
    let base := withPoles ⟨.arcing 60, .opened, .opened⟩ fun x => { x with discrepancy := 50 }
    let x : LiveRecord := { LiveRecord.cleared with theta := 0x40000000, aFix := 5 * 65536, sPrev := 1 }
    let s := { base with
      bs := { base.bs with discrepancy := .timing 50 }
      ws := { base.ws with live := base.ws.live.set 4 x } }
    plainSample s ∧ ¬ arcCrosses .a s ∧ (after .discrepancyTrip s).bs.poles.a = .arcing 60 ∧
      (after .discrepancyTrip s).bs.discrepancy = .spent 50 :=
  ⟨⟨⟨rfl, rfl, rfl, rfl⟩, rfl, rfl⟩, by unfold arcCrosses; decide +kernel⟩

/-- A sample that finds every pole at rest (R117): the spring alone changes, and disagreement starts the timer. -/
theorem test_witness_sample_at_rest :
    let s := withPoles ⟨.opened, .closed, .closed⟩ fun x => { x with charge := 0, discrepancy := 50000 }
    let u (spring : Spring) : Breaker := (computeSample 0 { s with bs := { s.bs with spring := spring } }).1.bs
    (u (.charging (some 0))).poles = s.bs.poles ∧ (u (.charging (some 0))).spring = .charged ∧
      (u (.charging (some 0))).discrepancy = .timing 0 ∧ (u .charged).spring = .charged ∧
      (u (.charging (some 1))).spring = .charging (some 1) := by decide +kernel

/-- Every row of R110's table, at the boundary of the timer, and the records of R111. -/
theorem test_witness_discrepancy_phases :
    let at_ (poles : PerPole Position) (time : Nat) (phase : Discrepancy) : State :=
      let s := withPoles poles fun x => { x with discrepancy := time }
      { s with bs := { s.bs with discrepancy := phase } }
    let apart : PerPole Position := ⟨.closed, .closing 90, .closing 91⟩
    let one : PerPole Position := ⟨.closed, .tripping 5, .arcing 6⟩
    let phase (s : State) : Discrepancy := (judgeDiscrepancy 100 s).bs.discrepancy
    phase (at_ one 50 .idle) = .idle ∧ phase (at_ apart 50 .idle) = .timing 100 ∧
      phase (at_ one 50 (.timing 50)) = .idle ∧ phase (at_ apart 50 (.timing 51)) = .timing 51 ∧
      phase (at_ apart 50 (.timing 50)) = .spent 50 ∧ phase (at_ one 50 (.spent 50)) = .idle ∧
      phase (at_ apart 50 (.spent 9)) = .spent 9 ∧ phase (at_ apart 0 .idle) = .idle ∧
      (judgeDiscrepancy 100 (at_ apart 50 (.timing 50))).rs.records.map (·.body) =
        [.breaker (.pole .b) .tripFree (some 10), .breaker (.pole .c) .tripFree (some 9),
          .breaker .mechanism .discrepancyTrip (some 50)] := by decide +kernel

/-! ### The sample grid and the amplifier link -/

theorem test_witness_grid_outside_run :
    let x := { readyGroup with frameNumber := 255, outstanding := some 255, missed := 2 }
    let s := { idleState with al := ⟨x, { x with state := .settling, outstanding := none }⟩ }
    s.resetLine = false ∧ s.count = s.ws.nextGrid ∧ s.inRun = false ∧ spared s.al.v ∧ spared s.al.i ∧
      (after .gridInstant s).al.v.missed = 3 ∧ (after .gridInstant s).al.i.outstanding = some 0 ∧
      (after .gridInstant s).ws.nextGrid = 500 := by
  unfold spared
  decide +kernel

theorem test_witness_grid_frame :
    ∃ t, exec .gridInstant (running plainEntry 1000) = .next t ∧ t.st = (running plainEntry 1000).st :=
  ⟨after .gridInstant (running plainEntry 1000), rfl, by decide +kernel⟩

theorem test_witness_codes :
    let s := running plainEntry 1000
    let t := { s with ws := { s.ws with
      settings := s.ws.settings.set 0 ⟨900, 32768, 5⟩
      live := s.ws.live.set 0 { LiveRecord.cleared with theta := 0x40000000, aFix := 1000 * 65536 } } }
    (sampleCodes t)[0] = 900 ∧ (sampleCodes t)[1] = 0 := by decide +kernel

/-- A clip episode that opens, one that closes, an advance with its ramp and decay, and the frame of a READY group. -/
theorem test_witness_wave_sample :
    let base := running plainEntry 1000
    let s := { base with ws := { base.ws with
      settings := base.ws.settings.set 0 ⟨900, 32768, 5⟩, decay := 32768, dRef := 9
      live := (base.ws.live.set 0 { LiveRecord.cleared with theta := 0x40000000, aFix := 1000 * 65536 }).set 5
        { LiveRecord.cleared with dTheta := 3, aFix := 65536, rampStep := 40000, rampTarget := 2, d := 131072, clip := true } } }
    let t := after .gridInstant s
    sampleHere s ∧ (clipEpisode 100 s 0).rs.records = [⟨3, 1, 100, .clip 0 true (some 1005)⟩] ∧
      (clipEpisode 100 s 5).rs.records = [⟨3, 1, 100, .clip 5 false none⟩] ∧ clipEpisode 100 s 1 = s ∧
      t.ws.codes[0] = 900 ∧ t.ws.codes[5] = 2 ∧ t.ws.r = 9 ∧
      t.ws.live[5] = ⟨3, 3, 105536, 40000, 2, 65536, 2, false⟩ ∧
      (t.al.v.lastFrame.map fun x => x.codes[0]) = some 900 ∧ t.al.v.outstanding = some 0 :=
  ⟨⟨rfl, rfl, rfl, rfl⟩, by decide +kernel⟩

/-- A pole that is open: no current, the open amplitude on a LINE-side voltage; the residual channel. -/
theorem test_witness_open_pole_values :
    let base := withPoles ⟨.opened, .closing 9, .closed⟩ fun x => { x with side := .line, openAmp := 70 }
    let s := { base with ws := { base.ws with
      ieMode := .residual
      live := .replicate 8 { LiveRecord.cleared with theta := 0x40000000, aFix := 40 * 65536, d := 65536 } } }
    poleOpen .a s ∧ poleOpen .b s ∧ ¬ poleOpen .c s ∧ sampleValue s 0 = 70 ∧ sampleValue s 2 = 40 ∧
      sampleValue s 4 = 0 ∧ sampleValue s 6 = 41 ∧ sampleValue s 7 = 41 ∧ (dropOpenDc s).ws.live[4].d = 0 ∧
      (dropOpenDc s).ws.live[6].d = 65536 :=
  ⟨Or.inl rfl, Or.inr ⟨9, rfl⟩, fun h => (by rcases h with h | ⟨_, h⟩ <;> cases h), by decide +kernel⟩

/-- A group with frame 7 outstanding. -/
def awaiting (x : AmpGroup) (s : State) : State := { s with al := ⟨{ x with outstanding := some 7 }, readyGroup⟩ }

theorem test_witness_acknowledgment :
    let s := awaiting { readyGroup with missed := 3 } (running plainEntry 1001)
    let good (flags : Byte) : Half := crc16 [0x5A, 7, flags]
    (after (.acknowledgment .v 7 0 (good 0)) s).al.v.missed = 0 ∧
      (after (.acknowledgment .v 7 0 (good 0 + 1)) s).al = s.al ∧
      (after (.acknowledgment .v 8 0 (crc16 [0x5A, 8, 0])) s).al = s.al ∧
      (after (.acknowledgment .v 7 16 (good 16)) s).al.v.state = .fault ∧
      (after (.acknowledgment .v 7 16 (good 16)) s).sq.state = .idle ∧
      (after (.acknowledgment .i 7 0 (good 0)) s).al = s.al := by decide +kernel

/-- Overload flags that raise no event: a run below 20, an open episode; a flag absent closes the episode. -/
theorem test_witness_overload_counting :
    let x := { readyGroup with overRun := #v[18, 20, 20, 3], episode := #v[false, true, true, false] }
    let s := awaiting x (running plainEntry 1001)
    let t := after (.acknowledgment .v 7 3 (crc16 [0x5A, 7, 3])) s
    t.al.v.overRun = #v[19, 20, 0, 0] ∧ t.al.v.episode = #v[false, true, false, false] ∧ t.inRun = true := by
  decide +kernel

theorem test_witness_settling_and_overload :
    let s := awaiting { readyGroup with state := .settling, acked := 1999 } State.reset
    let r := awaiting { readyGroup with overRun := .replicate 4 19 } (running plainEntry 1001)
    (after (.settlingComplete .v 7 0 (crc16 [0x5A, 7, 0])) s).al.v.state = .ready ∧
      ((after (.overloadEvent .v 3 7 8 (crc16 [0x5A, 7, 8])) r).al.v.episode[3]) = true ∧
      (after (.overloadEvent .v 3 7 8 (crc16 [0x5A, 7, 8])) r).sq.lastOutcome = some .ampFault ∧
      r.sq.settings = some (someRun .single .immediate) ∧ r.inRun = true := by decide +kernel

theorem test_witness_link_lost :
    let s := awaiting { readyGroup with missed := 3 } (running plainEntry 1000)
    s.count = s.ws.nextGrid ∧ (after (.linkLost .v) s).al.v.state = .fault ∧
      (after (.linkLost .v) s).al.v.missed = 4 ∧ (after (.linkLost .v) s).sq.lastOutcome = some .ampFault ∧
      (after (.linkLost .v) (awaiting { readyGroup with missed := 2 } s)).al.v.state = .ready := by decide +kernel

/-- A group's entry to FAULT: its AMP record, and the notice that stands after it in a run, in a wait and in IDLE. -/
theorem test_witness_group_fault :
    let cause (s : State) : Option NoticeCause := s.cl.notice.map (·.cause)
    let bodies (s : State) : List (Nat × Nat × RecordBody) := s.rs.records.map fun r => (r.run, r.time, r.body)
    let fault (s : State) : State := enterFault .i .overTemp s
    let settling := { State.reset with al := { State.reset.al with i := { AmpGroup.reset with state := .settling } } }
    bodies (fault (running plainEntry 1000)) =
        [(1, 100, .amp .i .overTemp none), (1, 100, .runEnd .ampFault 100 1 0 0 0)] ∧
      cause (fault (running plainEntry 1000)) = some .runEnd ∧
      cause (fault (inState .gap (someRun .repeated .go))) = some .chainEnd ∧
      (fault (inState .armed (someRun .triggered .go))).sq.state = .idle ∧
      cause (fault idleState) = some .ampFault ∧ bodies (fault idleState) = [(0, 0, .amp .i .overTemp none)] ∧
      ((fault settling).cl.notice.map fun n => n.snapshot.groups.i) = some .fault := by decide +kernel

/-- An overload event's record with its channel, in a run and outside one, and the two overload actions. -/
theorem test_witness_overload_record :
    let x := { readyGroup with overRun := .replicate 4 19 }
    let s := { running plainEntry 1000 with al := ⟨x, x⟩ }
    let keep := { s with sq := { s.sq with settings := some { someRun .single .immediate with action := .record } } }
    let bodies (s : State) : List (Nat × Nat × RecordBody) := s.rs.records.map fun r => (r.run, r.time, r.body)
    bodies (applyOverload .i 2 keep 1) = [(1, 100, .amp .i .overload (some 5))] ∧ (applyOverload .i 2 keep 1).inRun ∧
      (applyOverload .v 8 s 3).sq.lastOutcome = some .ampFault ∧
      bodies (applyOverload .v 8 { idleState with al := ⟨x, x⟩ } 3) = [(0, 0, .amp .v .overload (some 3))] ∧
      ((applyOverload .v 0 s 3).al.v.overRun[3]) = 0 ∧
      (after (.acknowledgment .v 7 15 (crc16 [0x5A, 7, 15])) (awaiting x keep)).rs.records.length = 4 := by
  decide +kernel

/-- A missed frame below the fourth, the fourth, and a group that is sent none. -/
theorem test_witness_missed_frames :
    let s (n : Nat) := awaiting { readyGroup with missed := n, acked := 9 } (running plainEntry 1000)
    let off := awaiting AmpGroup.reset (running plainEntry 1000)
    (settleMissed .v (s 2)).al.v.missed = 3 ∧ (settleMissed .v (s 2)).al.v.acked = 0 ∧
      (settleMissed .v (s 2)).inRun = true ∧ settleMissed .v off = off ∧
      ((settleMissed .v (s 3)).rs.records.map (·.body)).head? = some (.amp .v .linkLost none) := by decide +kernel

theorem test_witness_acknowledgment_bytes :
    let next (got : List Byte) (b : Byte) : List Byte :=
      (after (.acknowledgmentByte .v b) (awaiting { readyGroup with receiver := got } State.reset)).al.v.receiver
    let low : Byte := (crcBytes (crc16 [0x5A, 7, 0])).getD 0 0
    let high : Byte := (crcBytes (crc16 [0x5A, 7, 0])).getD 1 0
    next [] 7 = [] ∧ next [] 0x5A = [0x5A] ∧ next [0x5A] 0x5A = [0x5A, 0x5A] ∧
      next [0x5A, 7, 0] 1 = [0x5A, 7, 0, 1] ∧ next [0x5A, 7, 0, 1] 1 = [] ∧
      (after (.acknowledgmentByte .v high)
        (awaiting { readyGroup with receiver := [0x5A, 7, 0, low] } State.reset)).al.v.outstanding = none := by
  decide +kernel

/-! ### The sequencer's events -/

theorem test_witness_after_exit :
    let s := running (withExits [⟨.go, .finish, none⟩, ⟨.after 100, .state 1, none⟩, ⟨.after 100, .state 7, none⟩]) 1000
    let last := running (withExits [⟨.after 101, .finish, none⟩, ⟨.after 60, .state 7, none⟩]) 1000
    let at_ (l : List Exit) := running (withExits l) 1000
    sampleHere s ∧ spared s.al.v ∧ spared s.al.i ∧ s.entryTime + 100 ≤ s.now ∧
      s.runTimeAt (s.count - 500) < s.entryTime + 100 ∧
      (after (.afterExit 1) s).sq.taken = some ⟨.state 1, 1, 100, none⟩ ∧
      (after (.afterExit 1) last).sq.lastOutcome = some .table ∧
      after (.afterExit 0) (at_ [⟨.after 50, .finish, none⟩]) = settle (at_ [⟨.after 50, .finish, none⟩]) :=
  ⟨⟨rfl, rfl, rfl, rfl⟩, by unfold spared; decide +kernel⟩

/-- An exit with a mark action, into POINTING; the point passed and not yet passed (R161, R162). -/
theorem test_witness_pointing :
    let x : Exit := ⟨.go, .state 1, some (.clear 3)⟩
    let base := running (withExits [x]) 1000
    let s := { base with
      st := { base.st with entries := base.st.entries.set 1 (some { plainEntry with inception := some 9000 }) }
      sq := { base.sq with marks := 0xF } }
    let t := takeExit 0 x 100 none s
    let at_ (r : Word) : State := { t with ws := { t.ws with r := r, dRef := 0x100 } }
    t.sq.state = .pointing ∧ t.sq.marks = 7 ∧ t.sq.taken = some ⟨.state 1, 0, 100, none⟩ ∧ sampleHere (at_ 0) ∧
      (after .gridInstant (at_ 0x400000FF)).sq.current = some 1 ∧
      (after .gridInstant (at_ 0x40000100)).sq.state = .pointing ∧
      (after .gridInstant (at_ 0x3FFFFFFF)).sq.taken = some ⟨.state 1, 0, 100, none⟩ ∧
      spared t.al.v ∧ judgeEvent (fun t => decide (t = .go)) 100 s = t :=
  ⟨by decide +kernel, by decide +kernel, by decide +kernel, ⟨rfl, rfl, rfl, rfl⟩, by unfold spared; decide +kernel⟩

/-- A taken exit into an entry without inception: its target is entered at the next sample (R161). -/
theorem test_witness_next_sample_entry :
    let base := running plainEntry 1000
    let s := { base with sq := { base.sq with taken := some ⟨.state 1, 0, 60, none⟩ } }
    sampleHere s ∧ entryDue s = some 1 ∧ (after .gridInstant s).sq.current = some 1 ∧
      ((after .gridInstant s).sq.visits[1]) = 1 ∧ (after .gridInstant s).sq.taken = none :=
  ⟨⟨rfl, rfl, rfl, rfl⟩, by decide +kernel⟩

theorem test_witness_guard_expiry :
    let base := running (withExits [⟨.go, .finish, none⟩, ⟨.sync, .state 1, none⟩]) 1000
    let s (l : Option Latch) : State := { base with sq := { base.sq with guard := some ⟨100, l⟩ } }
    sampleHere (s none) ∧ sampleHere (s (some ⟨1, 40⟩)) ∧
      (after .guardExpiry (s none)).sq.guard = none ∧ (after .guardExpiry (s none)).sq.taken = none ∧
      (after .guardExpiry (s (some ⟨1, 40⟩))).sq.taken = some ⟨.state 1, 1, 100, some 40⟩ :=
  ⟨⟨rfl, rfl, rfl, rfl⟩, ⟨rfl, rfl, rfl, rfl⟩, by decide +kernel⟩

/-- A match during the guard is latched, a lower index replaces it; at the expiry the lower of latch and match is taken;
the entry tests of the first sample (R158 to R160). -/
theorem test_witness_latching :
    let base := running (withExits [⟨.breaker .anyOpen, .state 1, none⟩, ⟨.count 2, .state 1, none⟩,
      ⟨.mark 4, .state 1, none⟩]) 1000
    let s (expiry : Nat) (l : Option Latch) : State := { base with sq := { base.sq with guard := some ⟨expiry, l⟩ } }
    let entry := { base with sq := { base.sq with entrySample := true, marks := 0x10, counters := .replicate 4 1 } }
    (judgeSample 1000 [.anyOpen] (s 101 (some ⟨2, 40⟩))).sq.guard = some ⟨101, some ⟨0, 100⟩⟩ ∧
      (judgeEvent (fun t => decide (t = .count 2)) 60 (s 101 (some ⟨0, 40⟩))).sq.guard = some ⟨101, some ⟨0, 40⟩⟩ ∧
      (judgeEvent (fun t => decide (t = .count 2)) 20 (s 101 (some ⟨1, 40⟩))).sq.guard = some ⟨101, some ⟨1, 40⟩⟩ ∧
      (judgeSample 1000 [.anyOpen] (s 100 (some ⟨2, 40⟩))).sq.taken = some ⟨.state 1, 0, 100, none⟩ ∧
      (judgeSample 1000 [] (s 100 (some ⟨2, 40⟩))).sq.taken = some ⟨.state 1, 2, 100, some 40⟩ ∧
      (judgeSample 1000 [] entry).sq.taken = some ⟨.state 1, 2, 100, none⟩ ∧
      (judgeSample 1000 [] base).sq.taken = none := by decide +kernel

theorem test_witness_limit :
    let s := running plainEntry 40000000000
    let t := running plainEntry 39999999500
    s.now = 4000000000 ∧ s.inRun = true ∧ (after .limit s).sq.lastOutcome = some .limit ∧
      (after .limit t).sq.state = .running := by decide +kernel

/-- A taken exit to END ends the run in the place of the next sample, at the run time limit too (R166). -/
theorem test_witness_complete :
    let ending (count : Nat) : State :=
      let s := running plainEntry count
      { s with sq := { s.sq with taken := some ⟨.finish, 0, 60, none⟩ } }
    (ending 1000).inRun = true ∧ (after .gridInstant (ending 1000)).sq.lastOutcome = some .complete ∧
      (after .gridInstant (ending 1000)).rs.records.map (·.body) = [.runEnd .complete 100 1 0 0 0] ∧
      (after .gridInstant (ending 1000)).ws.codes = .replicate 8 0 ∧
      (after .gridInstant (ending 40000000000)).sq.lastOutcome = some .complete ∧
      sampleEnd 3999999999 (running plainEntry 1000) = none ∧
      sampleEnd 4000000000 (running plainEntry 1000) = some .limit ∧
      sampleEnd 4000000000 (ending 1000) = some .complete := by decide +kernel

theorem test_witness_gap_end :
    let gap (e : Nat) : State :=
      { inState .gap (someRun .repeated .go) with
        count := 9, sq := { (inState .gap (someRun .repeated .go)).sq with gapEnd := some e } }
    (after .gapEnd (gap 9)).sq.state = .running ∧ after .gapEnd (gap 10) = settle (gap 10) ∧
      (after .gapEnd { gap 9 with al := ⟨readyGroup, .reset⟩ }).sq.state = .idle := by decide +kernel

/-- TRIP_ACCEPTED decrements its counter before the assessment unit judges the pole event of the same command: the FILL
snapshot of its ASSESS record shows the counter decremented (R114, log 37). -/
theorem test_counted_event_first :
    let base := running plainEntry 1000
    let visit : Visit := ⟨0, 1, 0, [⟨⟨.anyOpen, .expect, 1, 99⟩, none, none⟩]⟩
    let s := { base with
      asmt := ⟨some visit, 0, 0⟩
      st := { base.st with sources := base.st.sources.set 2 .tripAccepted }
      sq := { base.sq with counters := base.sq.counters.set 2 8 }
      rs := { base.rs with fillArmed := true, records := List.replicate 479 ⟨1, 0, 0, .clip 0 true none⟩ } }
    let t := handCommandEvents (some .tripAccepted) [.anyOpen] 90 s
    t.sq.counters[2] = 7 ∧ t.asmt.pass = 1 ∧ t.cl.notice.isSome ∧ (t.cl.notice = (assessBreakerEvents [.anyOpen] 90 100
      { s with sq := { s.sq with counters := s.sq.counters.set 2 7 } }).cl.notice) := by decide +kernel

/-- A TIMING input's edge that decrements C2 to zero, and a load and entry decrement at a sample. -/
theorem test_witness_counted_event :
    let s := contact (.candidate 0 [true, true, false]) 0 (running plainEntry 1001)
    let t := { s with
      st := { s.st with sources := s.st.sources.set 2 (.edge 1) }
      sq := { s.sq with counters := s.sq.counters.set 2 1 } }
    let u := running { plainEntry with loads := (plainEntry.loads).set 3 (some 1) } 1000
    let v := { u with
      st := { u.st with sources := u.st.sources.set 3 (.entry 0) }
      sq := { u.sq with taken := some ⟨.state 0, 0, 90, none⟩ } }
    decrementDue 2 (.qualification 1) t = true ∧ decrementDue 3 .gridInstant v = true ∧ t.inRun = true ∧
      (t.ci.inputs[0]).role = .timing ∧ t.st.sources[2] = .edge 1 ∧ t.sq.counters[2] = 1 ∧
      (after (.decrementToZero 3 .gridInstant) v).sq.counters[3] = 0 := by decide +kernel

theorem test_witness_run_end :
    let s := running plainEntry 1000
    let chain := { s with sq := { s.sq with settings := some { someRun .repeated .go with gap := 30 }, remainder := 2 } }
    (runEnd .halted s).sq.state = .idle ∧ (runEnd .complete chain).sq.gapEnd = some 1300 ∧
      (runEnd .complete { chain with sq := { chain.sq with remainder := 0 } }).sq.state = .idle ∧
      (runEnd .complete { s with sq := { s.sq with settings := some (someRun .triggered .go) } }).sq.state = .armed ∧
      (runEnd .complete s).rs.records = [⟨3, 1, 100, .runEnd .complete 100 1 0 0 0⟩] := by decide +kernel

/-- A run end's tallies, whether it abandons or not, its pending records and its lost count. -/
theorem test_witness_run_end_accounts :
    let base := contact (.window 9000) 50 (running plainEntry 1000)
    let x : ContactInput :=
      { base.ci.inputs[0] with bounces := 2, pendingEdge := some ⟨.active, 60, false, 1, false⟩ }
    let visit : Visit := ⟨0, 1, 0, [⟨⟨.anyOpen, .expect, 1, 9⟩, none, none⟩, ⟨⟨.anyOpen, .forbid, 1, 9⟩, none, none⟩,
      ⟨⟨.allClosed, .expect, 1, 9⟩, some .pass, some 4⟩]⟩
    let s := putInput 0 x { base with asmt := ⟨some visit, 1, 0⟩, rs := { base.rs with window := some ⟨1, 6⟩ } }
    let bodies (o : RunOutcome) : List RecordBody := (runEnd o s).rs.records.map (·.body)
    fourItems s.asmt ∧
      bodies .complete = [.assess 0 1 0 .missing none, .assess 0 1 1 .pass none, .inputEdge 1 .active 60 false 1 2 false,
        .runEnd .complete 100 1 2 1 6] ∧
      (bodies .limit).getLast? = some (.runEnd .limit 100 1 1 2 6) ∧
      (((runEnd .complete s).ci.inputs[0]).qualifier) = .window 9000 :=
  ⟨fun v h => (by cases h; decide), by decide +kernel⟩

/-- The records of a run end in order: SYNC IN before the binary inputs, CLIP END, RESOLVED, RUN_END (R167). -/
theorem test_witness_run_end_records :
    let base := contact .steady 0 (running plainEntry 1000)
    let edge : PendingEdge := ⟨.active, 60, false, 1, false⟩
    let s := { putInput 0 { base.ci.inputs[0] with bounces := 2, pendingEdge := some edge } base with
      bs := { base.bs with poles := ⟨.arcing 60, .closed, .closing 90⟩, discrepancy := .timing 50 }
      ws := { base.ws with live := base.ws.live.set 3 { LiveRecord.cleared with clip := true }, r := 9 } }
    let t := { s with ci := { s.ci with sync := { s.ci.sync with pendingEdge := some { edge with edgeTime := 70 } } } }
    let u := runEnd .halted t
    (u.rs.records.map (·.body)) =
        [.inputEdge 0 .active 70 false 1 0 false, .inputEdge 1 .active 60 false 1 2 false, .clip 3 false none,
          .breaker (.pole .a) .resolved none, .breaker (.pole .c) .resolved none, .runEnd .halted 100 1 0 0 0] ∧
      u.bs.poles = ⟨.opened, .closed, .opened⟩ ∧ u.bs.discrepancy = .idle ∧ u.ws.r = 0 := by decide +kernel

theorem test_witness_run_start :
    let s := { inState .armed (someRun .repeated .go) with count := 77, asmt := Assessment.reset }
    s.sq.settings = some (someRun .repeated .go) ∧ s.st.entries[0] = some plainEntry ∧ s.ws.lastGrid ≠ some 77 ∧
      s.asmt.visit = none ∧ (startRun 77 false s).sq.remainder = 1 ∧ (startRun 77 false s).ws.nextGrid = 77 ∧
      (startRun 77 false s).rs.records.length = 2 := by decide +kernel

/-- What a run start leaves over an earlier run's values: counters, visit counts, guard, visit, outputs; and a first
state that is EMPTY. -/
theorem test_witness_run_start_blocks :
    let part : ChannelPart := ⟨40, 9000, 50000, 90, 1, .set, .continueDc⟩
    let e : Entry := { plainEntry with
      channels := .replicate 8 part, guard := 70, loads := (plainEntry.loads).set 1 (some 5)
      items := [⟨.anyOpen, .expect, 1, 9⟩] }
    let armed := inState .armed (someRun .repeated .go)
    let s := { armed with
      count := 77
      st := { armed.st with entries := armed.st.entries.set 0 (some e), sources := armed.st.sources.set 1 (.entry 0) }
      sq := { armed.sq with counters := .replicate 4 9, visits := .replicate 24 3, marks := 7 }
      bo := { armed.bo with sources := armed.bo.sources.set 2 .runActive } }
    let t := startRun 77 false s
    let u := startRun 77 false { s with st := { s.st with entries := s.st.entries.set 0 none } }
    t.sq.counters.toList = [0, 4, 0, 0] ∧ t.sq.visits[0] = 1 ∧ t.sq.visits[5] = 0 ∧ t.sq.guard = some ⟨70, none⟩ ∧
      t.asmt.visit = some ⟨0, 1, 0, [⟨⟨.anyOpen, .expect, 1, 9⟩, none, none⟩]⟩ ∧ t.ws.live[4].d = -40 * 65536 ∧
      t.ws.live[0].theta = 0x40000000 ∧ t.bo.outputs[2] = true ∧ t.bo.outputs[1] = false ∧
      u.sq.state = .running ∧ u.sq.current = none ∧ u.rs.records.length = 1 ∧ u.asmt.visit = none ∧
      u.sq.counters.toList = [0, 0, 0, 0] ∧ u.bo.outputs[2] = true := by decide +kernel

/-- A T0 before the present count: elapsed samples; and a store of 638 records, where STATE_ENTRY is lost. -/
theorem test_witness_run_start_elapsed :
    let s := { inState .armed (someRun .single .sync) with count := 1600, asmt := Assessment.reset }
    let near := { s with ws := { s.ws with lastGrid := some 1600 } }
    let full := { s with rs := { ReportStore.reset with records := List.replicate 638 ⟨1, 0, 0, .clip 0 true none⟩ } }
    (startRun 600 false s).ws.nextGrid = 1600 ∧ (startRun 600 false near).ws.nextGrid = 2100 ∧
      (startRun 700 false s).ws.nextGrid = 1700 ∧ (startRun 600 false s).ws.live[0].theta = 2 * increment 50000 0 ∧
      (startRun 1600 false full).rs.window = some ⟨1, 1⟩ ∧ (startRun 1600 false full).rs.records.length = 639 := by
  decide +kernel

theorem test_witness_state_entry :
    let s := running plainEntry 1000
    s.st.entries[1] = some plainEntry ∧ (enterState 1 100 s).sq.current = some 1 ∧
      ((enterState 1 100 s).sq.visits[1]) = 1 ∧ (enterState 1 100 s).bo.pattern = 5 := by decide +kernel

/-- A later entry: its record with exit, exit time and cause time, the items of the visit before, and the live
records by their modes. -/
theorem test_witness_state_entry_record :
    let part : ChannelPart := ⟨40, 0, 50000, 90, 1, .keep, .continueDc⟩
    let base := running plainEntry 1000
    let s := { base with
      st := { base.st with entries := base.st.entries.set 1 (some { plainEntry with channels := .replicate 8 part }) }
      ws := { base.ws with live := .replicate 8 { LiveRecord.cleared with theta := 0x40000000, sPrev := 50, d := 9 } }
      asmt := { visit := some ⟨0, 1, 0, [⟨⟨.anyOpen, .expect, 1, 9⟩, none, none⟩]⟩, pass := 0, nonPass := 0 }
      sq := { base.sq with taken := some ⟨.state 1, 2, 90, some 70⟩ } }
    let t := enterState 1 100 s
    (t.rs.records.map (·.body)) =
        [.assess 0 1 0 .missing none, .stateEntry 1 1 100 (some 0) (some 2) (some 90) (some 70)] ∧
      t.asmt.nonPass = 1 ∧ t.ws.live[4] = ⟨0x40000000, increment 50000 0, 40 * 65536, 163840, 90, 655360, 50, false⟩ ∧
      t.ws.live[0].d = 0 := by decide +kernel

/-- The decisions of items by an event: EARLY, PASS and LATE, a FORBID item's FAIL, and none outside its window. -/
theorem test_witness_item_decisions :
    let item (kind : ItemKind) (lo hi : Nat) : ItemRun := ⟨⟨.anyOpen, kind, lo, hi⟩, none, none⟩
    let base := running plainEntry 1000
    let visit : Visit := ⟨0, 1, 10, [item .expect 5 9, item .expect 0 5, item .forbid 4 4, item .forbid 5 9]⟩
    let s := { base with asmt := ⟨some visit, 0, 0⟩ }
    let bodies (te : Nat) : List RecordBody := (assessEvent .anyOpen te 100 s).rs.records.map (·.body)
    bodies 14 = [.assess 0 1 0 .early (some 4), .assess 0 1 1 .pass (some 4), .assess 0 1 2 .fail (some 4)] ∧
      bodies 16 = [.assess 0 1 0 .pass (some 6), .assess 0 1 1 .late (some 6), .assess 0 1 3 .fail (some 6)] ∧
      (assessEvent .anyOpen 14 100 s).asmt.pass = 1 ∧ (assessEvent .anyOpen 14 100 s).asmt.nonPass = 2 ∧
      (endVisit true 100 s).asmt.nonPass = 4 ∧ (endVisit false 100 s).asmt.pass = 2 ∧ fourItems s.asmt :=
  ⟨by decide +kernel, by decide +kernel, by decide +kernel, by decide +kernel, by decide +kernel, by decide +kernel,
    fun v h => by cases h; decide⟩

/-! ### The report store -/

/-- Admission at its two boundaries: 639 outside a run, 638 in a run. -/
theorem test_witness_offers :
    let clip : RecordBody := .clip 0 true none
    let store (n : Nat) (w : Option RunWindow) : ReportStore :=
      { ReportStore.reset with records := List.replicate n ⟨1, 0, 0, clip⟩, window := w, nextSeq := 4294967295 }
    ((store 639 none).offer 0 0 clip).records.length = 640 ∧ ((store 640 none).offer 0 0 clip).records.length = 640 ∧
      ((store 638 (some ⟨1, 0⟩)).offer 1 0 clip).records.length = 639 ∧
      ((store 639 (some ⟨1, 0⟩)).offer 1 0 clip).window = some ⟨1, 1⟩ ∧
      ((store 639 (some ⟨1, 0⟩)).offer 1 0 (.runEnd .halted 0 0 0 0 0)).window = none ∧
      ((store 640 none).offer 0 0 clip).nextSeq = 4294967296 := by decide +kernel

/-- R189: the offer after number 4,294,967,295. -/
theorem test_number_wrap :
    let rs : ReportStore := ⟨[⟨9, 2, 0, .clip 0 true none⟩, ⟨10, 1, 0, .clip 0 true none⟩], 4294967296, some ⟨2, 4⟩, false⟩
    rs.offer 2 5 (.clip 1 true none) = ⟨[⟨1, 2, 5, .clip 1 true none⟩], 2, some ⟨2, 5⟩, true⟩ := by decide

/-- RUN_START at its two boundaries, and the FILL notice at the 480th record. -/
theorem test_witness_run_start_offer_and_fill :
    let clip : RecordBody := .clip 0 true none
    let start : RecordBody := .runStart .single .go 0 50000 0 none false
    let store (n : Nat) : ReportStore := { ReportStore.reset with records := List.replicate n ⟨1, 0, 0, clip⟩ }
    let s (n : Nat) (armed : Bool) : State := { State.reset with rs := { store n with fillArmed := armed } }
    ((store 638).offer 4 0 start).window = some ⟨4, 0⟩ ∧ ((store 638).offer 4 0 start).records.length = 639 ∧
      ((store 639).offer 4 0 start).window = some ⟨4, 1⟩ ∧ ((store 639).offer 4 0 start).records.length = 639 ∧
      (offer 0 0 clip (s 479 true)).cl.notice.isSome ∧ (offer 0 0 clip (s 479 true)).rs.fillArmed = false ∧
      (offer 0 0 clip (s 479 false)).cl.notice = none ∧ (offer 0 0 clip (s 480 true)).cl.notice = none := by
  decide +kernel

/-- Records byte by byte from R205: each optional field present and absent, a signed field below 0. -/
theorem test_record_bytes :
    Record.bytes ⟨1, 2, 3, .runStart .repeated .atSecond 4 50000 (-1) (some 9) true⟩ =
        [29, 1, 0, 0, 0, 1, 2, 0, 3, 0, 0, 0, 1, 1, 3, 4, 0x50, 0xC3, 0, 0, 255, 255, 255, 255, 9, 0, 0, 0, 1] ∧
      Record.bytes ⟨1, 2, 3, .stateEntry 4 258 5 (some 6) (some 1) none (some 7)⟩ =
        [26, 1, 0, 0, 0, 2, 2, 0, 3, 0, 0, 0, 11, 4, 2, 1, 5, 0, 0, 0, 6, 1, 7, 0, 0, 0] ∧
      Record.bytes ⟨1, 2, 3, .assess 4 5 2 .early (some (-2))⟩ =
        [26, 1, 0, 0, 0, 5, 2, 0, 3, 0, 0, 0, 1, 4, 5, 0, 2, 0, 254, 255, 255, 255, 255, 255, 255, 255] ∧
      Record.bytes ⟨1, 2, 3, .time .relocked none (some 9)⟩ =
        [18, 1, 0, 0, 0, 8, 2, 0, 3, 0, 0, 0, 2, 1, 9, 0, 0, 0] ∧
      Record.bytes ⟨1, 2, 3, .amp .i .overload (some 5)⟩ = [16, 1, 0, 0, 0, 7, 2, 0, 3, 0, 0, 0, 1, 1, 2, 5] ∧
      Record.bytes ⟨1, 2, 3, .clip 7 false none⟩ = [15, 1, 0, 0, 0, 6, 2, 0, 3, 0, 0, 0, 0, 7, 1] := by decide +kernel

theorem test_witness_repread :
    let r : Record := ⟨1, 0, 0, .time .epochSet none (some 9)⟩
    let s := { State.reset with rs := { ReportStore.reset with records := [r, r, r], nextSeq := 4, fillArmed := false } }
    listening s ∧ statusOf (.repread 5 0) s = some .clamped ∧ statusOf (.repread 5 1) s = some .ok ∧
      statusOf (.repread 5 24) s = some .ok ∧ statusOf (.repread 5 25) s = some .clamped ∧
      (after (.repread 5 2) s).rs.records = [r] ∧ (after (.repread 5 2) s).rs.fillArmed = true ∧
      reply (.repread 5 1) State.reset = some (.ok, [0, 0, 0, 1, 0, 0, 0]) :=
  ⟨⟨rfl, rfl⟩, by decide +kernel⟩

/-- The sources over poles that trip, arc and close (R121, R123). -/
theorem test_source_values :
    let value := sourceValue ⟨.tripping 5, .arcing 6, .closing 7⟩ .charged 5 true 2
    [value .poleAA, value .poleAB, value .poleBA, value .poleCB, value .allA, value .anyB, value .spring, value .stateBit,
        value .runActive] = [true, false, false, true, false, true, true, true, true] ∧
      sourceValue ⟨.closed, .tripping 1, .closed⟩ (.charging none) 5 false 1 .allA = true ∧
      sourceValue ⟨.closed, .tripping 1, .closed⟩ (.charging none) 5 false 1 .spring = false := by decide

/-- Due events: at reset the contact sample and the grid instant; a ripe candidate, a window end, a mark and a gap. -/
theorem test_due_events :
    let ripe := contact (.candidate 0 [true, true, true]) 0 { State.reset with count := 7 }
    let ending := { contact (.window 1000) 50 { State.reset with count := 1000 } with
      tb := { TimeBase.reset with prevMark := some 0, interval := 900 } }
    let gap := { inState .gap (someRun .repeated .go) with
      count := 9, sq := { (inState .gap (someRun .repeated .go)).sq with gapEnd := some 9 } }
    dueEvents State.reset = [.contactSample 0 false, .gridInstant] ∧ dueEvents ripe = [.qualification 1] ∧
      dueEvents ending = [.windowEnd 1] ∧ dueEvents { ending with count := 5901 } = [.internalMark] ∧
      dueEvents gap = [.gapEnd] := by decide +kernel

/-- Rows that name an instant of the part's own change nothing where it is not due (log 4). -/
theorem test_rows_not_due :
    let s := running plainEntry 1000
    let rows : List Instr := [.contactsParted .a, .interruptedForced .b, .closingExpiry .c, .springCharged,
      .discrepancyTrip, .afterExit 0, .guardExpiry, .limit, .closingPulse, .settlingComplete .v 0 0 0,
      .overloadEvent .i 2 0 0 0, .linkLost .v, .decrementToZero 1 .gridInstant, .internalMark, .gapEnd, .windowEnd 0]
    sampleHere s ∧ rows.all (fun c => decide (after c s = settle s)) = true ∧ after .gridInstant s ≠ settle s :=
  ⟨⟨rfl, rfl, rfl, rfl⟩, by decide +kernel, by decide +kernel⟩

/-- Two overload events by one acknowledgment under ABORT: the second's record stands after RUN_END (log 44). -/
theorem test_two_overloads_under_abort :
    let base := running plainEntry 1000
    let x : AmpGroup := { readyGroup with outstanding := some 5, overRun := .replicate 4 19 }
    let s := { base with al := ⟨x, readyGroup⟩ }
    (after (.acknowledgment .v 5 3 (crc16 [0x5A, 5, 3])) s).rs.records.map (fun r => (r.run, r.time, r.body)) =
      [(1, 100, .amp .v .overload (some 0)), (1, 100, .runEnd .ampFault 100 1 0 0 0),
        (0, 0, .amp .v .overload (some 1))] := by decide +kernel

/-! ### What every step keeps -/

/-- The state after reset has the three properties and goes on by a step. -/
theorem test_witness_invariants :
    let s := { State.reset with pending := [.ident 4] }
    outputsFollow s ∧ runCoherent s ∧ slotsCoherent s.cl ∧ step s = .next (after (.ident 4) State.reset) :=
  ⟨by unfold outputsFollow; decide, by unfold runCoherent ReportStore.ordered; decide,
    ⟨rfl, by decide, by decide, by decide⟩, rfl⟩

end Sys2Proof.Tests
end

/-! # What one step does

Every command but the three on the RESET line and the supply goes through `act`. `StepEffect` lists the effects that
`act` then settles: one of the operations of the control link, or an operation that leaves the slots of the control link
and keeps a coherent run (`Sound`, Laws/Frames.lean). An invariant of the steps is proved along these six cases. -/

namespace Sys2Proof.Machine

/-- The effects of a command on a released RESET line, before the end of the step. -/
inductive StepEffect (s : State) : State → Prop
  | sound {t : State} (h : Sound s t) : StepEffect s t
  | request (h : HeldRequest) : StepEffect s (submit h s)
  | frame (kind tag : Byte) (body : List Byte) : StepEffect s (receiveFrame kind tag body s)
  | byte (start : Nat) (b : Byte) (stop : Bool) : StepEffect s (receiveLineByte start b stop s)
  | gap : StepEffect s (interByteGap s)
  | sent : StepEffect s (frameSent s)

/-- The command acts on the RESET line or on the supply, not through `act`. -/
def IsResetRow (c : Instr) : Prop := c = .powerOn ∨ c = .resetLineAsserted ∨ c = .resetLineReleased

/-- The command's meaning is `act` of an effect of the list. -/
def ActsBy (c : Instr) (s : State) : Prop := ∃ f, exec c s = act f s ∧ StepEffect s (f s)

theorem whenDue_sound {due : Bool} {f : State → State} {s : State} (h : due = true → Sound s (f s)) :
    Sound s (whenDue due f s) := by
  unfold whenDue
  split
  · next hd => exact h hd
  · exact .refl s

theorem gap_of_gapEndDue {s : State} (h : gapEndDue s = true) : s.sq.state = .gap := by
  unfold gapEndDue at h
  simp only [Bool.and_eq_true, decide_eq_true_eq] at h
  exact h.1

theorem countedStep_effect (via : CountedStep) (s : State) : StepEffect s (countedStep via s) := by
  cases via with
  | qualification input => exact .sound (qualify_sound input s)
  | windowEnd input => exact .sound (windowEnd_sound input s)
  | inject tag input level => exact .request _
  | gridInstant => exact .sound (gridInstant_sound s)

theorem countedStep_whenDue_effect (due : Bool) (via : CountedStep) (s : State) :
    StepEffect s (whenDue due (countedStep via) s) := by
  cases due
  · exact .sound (.refl s)
  · exact countedStep_effect via s

theorem actsBy_request {c : Instr} {h : HeldRequest} {s : State} (e : exec c s = act (submit h) s) : ActsBy c s :=
  ⟨submit h, e, .request h⟩

/-- A row whose effect leaves the slots, in every state in which it is due. -/
theorem actsBy_due {c : Instr} {due : Bool} {f : State → State} {s : State}
    (e : exec c s = act (whenDue due f) s) (h : due = true → Sound s (f s)) : ActsBy c s :=
  ⟨whenDue due f, e, .sound (whenDue_sound h)⟩

theorem actsBy_sound {c : Instr} {f : State → State} {s : State} (e : exec c s = act f s) (h : Sound s (f s)) :
    ActsBy c s := ⟨f, e, .sound h⟩

/-- What a command can do: a reset row, or `act` of an effect of the list. -/
theorem exec_cases (c : Instr) (s : State) : IsResetRow c ∨ ActsBy c s := by
  cases c with
  | powerOn => exact .inl (.inl rfl)
  | resetLineAsserted => exact .inl (.inr (.inl rfl))
  | resetLineReleased => exact .inl (.inr (.inr rfl))
  | frameReceived kind tag body => exact .inr ⟨_, rfl, .frame kind tag body⟩
  | stwrite tag body => exact .inr ⟨_, rfl, .frame 0x20 tag body⟩
  | byteReceived start b stop => exact .inr ⟨_, rfl, .byte start b stop⟩
  | interByteGap => exact .inr ⟨_, rfl, .gap⟩
  | frameSent => exact .inr ⟨_, rfl, .sent⟩
  | ident | status | reset | chanset | inset | inject | ampon | ampoff | brkset | outset | stread | stclear | cntset
  | run | halt | go | tcal | tcalx | tsec | repread => exact .inr (actsBy_request rfl)
  | ppsEdge => exact .inr (actsBy_sound rfl (ppsEdge_sound s))
  | closingPulse => exact .inr (actsBy_due rfl fun _ => ppsEdge_sound s)
  | internalMark => exact .inr (actsBy_due rfl fun _ => internalMark_sound s)
  | contactSample contacts sync => exact .inr (actsBy_due rfl fun _ => (takeContactSample_kept contacts sync s).sound)
  | qualification input => exact .inr (actsBy_due rfl fun _ => qualify_sound input s)
  | windowEnd input => exact .inr (actsBy_due rfl fun _ => windowEnd_sound input s)
  | acknowledgment g n f c => exact .inr (actsBy_sound rfl (acknowledge_sound g n f c s))
  | acknowledgmentByte g b => exact .inr (actsBy_sound rfl (receiveAckByte_sound g b s))
  | settlingComplete g n f c => exact .inr (actsBy_due rfl fun _ => acknowledge_sound g n f c s)
  | overloadEvent g k n f c => exact .inr (actsBy_due rfl fun _ => acknowledge_sound g n f c s)
  | linkLost g => exact .inr (actsBy_due rfl fun _ => settleMissed_sound g s)
  | gridInstant | contactsParted | interruptedForced | closingExpiry | springCharged | discrepancyTrip | afterExit
  | guardExpiry | limit => exact .inr (actsBy_due rfl fun _ => gridInstant_sound s)
  | gapEnd => exact .inr (actsBy_due rfl fun h => gapEnd_sound (gap_of_gapEndDue h))
  | decrementToZero counter via => exact .inr ⟨_, rfl, countedStep_whenDue_effect _ via s⟩

theorem act_asserted {f : State → State} {s : State} (h : s.resetLine = true) : act f s = .next s := if_pos h

theorem act_released {f : State → State} {s : State} (h : s.resetLine = false) : act f s = .next (settle (f s)) := by
  simp [act, h]

/-- The event taken is one that is due, in a state that has at most consumed a free choice (log 2). -/
theorem nextDue_some {s : State} {due : Instr × State} (h : nextDue s = some due) :
    due.1 ∈ dueEvents s ∧ ∃ n, due.2 = { s with free := n } := by
  unfold nextDue at h
  split at h
  · cases h
  · split at h
    · cases h
    · next c hc =>
      cases h
      exact ⟨by simp [hc], s.free, rfl⟩
    · next c rest _ hc =>
      cases h
      have hlt : Config.dueChoice s.free % (rest.length + 1) < (c :: rest).length := Nat.mod_lt _ (by simp)
      refine ⟨?_, _, rfl⟩
      rw [hc, List.getD_eq_getElem _ _ hlt]
      exact List.getElem_mem hlt

theorem step_due {s : State} {due : Instr × State} (h : s.pending = []) (hn : nextDue s = some due) :
    step s = exec due.1 due.2 := by
  simp only [step, h, hn]

theorem step_idle {s : State} (h : s.pending = []) (hn : nextDue s = none) : step s = .next (advanceCount s) := by
  simp only [step, h, hn]

/-- What a step can be: the command in front of the queue, a due event of the part's own (log 1, log 2), or the passing of
one count (R15). -/
theorem step_cases (s : State) :
    (∃ c rest, s.pending = c :: rest ∧ step s = exec c { s with pending := rest }) ∨
    (s.pending = [] ∧ ∃ c ∈ dueEvents s, ∃ n, step s = exec c { s with free := n }) ∨
    step s = .next (advanceCount s) := by
  by_cases hp : s.pending = []
  · cases h : nextDue s with
    | none => exact .inr (.inr (step_idle hp h))
    | some due =>
      obtain ⟨hmem, n, hn⟩ := nextDue_some h
      exact .inr (.inl ⟨hp, due.1, hmem, n, by rw [step_due hp h, hn]⟩)
  · obtain ⟨c, rest, hq⟩ := List.exists_cons_of_ne_nil hp
    exact .inl ⟨c, rest, hq, by simp only [step, hq]⟩

/-! ## The request slots (R4, R5, R8) -/

theorem StepEffect.slots {s t : State} (e : StepEffect s t) (h : slotsCoherent s.cl) : slotsCoherent t.cl := by
  cases e with
  | sound k => exact slots_of_quiet k.quiet h
  | request q => exact submit_slots q h
  | frame kind tag body => exact receiveFrame_slots kind tag body h
  | byte start b stop => exact receiveLineByte_slots start b stop h
  | gap => exact interByteGap_slots h
  | sent => exact frameSent_slots h

theorem slotsCoherent_reset : slotsCoherent ControlLink.reset := ⟨rfl, nofun, Nat.zero_le _, Nat.zero_le _⟩

theorem exec_slots {c : Instr} {s t : State} (h : slotsCoherent s.cl) (e : exec c s = .next t) :
    slotsCoherent t.cl := by
  obtain (rfl | rfl | rfl) | ⟨f, hf, k⟩ := exec_cases c s
  · cases e; exact slotsCoherent_reset
  · cases e; exact slotsCoherent_reset
  · cases e; exact h
  · rw [hf] at e
    cases hr : s.resetLine with
    | true => rw [act_asserted hr] at e; cases e; exact h
    | false => rw [act_released hr] at e; cases e; exact settle_slots (k.slots h)

/-- Settles O59: each of the three kinds of step keeps the slots, a command's by the effects that `act` settles. -/
theorem everyStepKeepsTheSlotsCoherent : Obligations.EveryStepKeepsTheSlotsCoherent := by
  intro s t h e
  obtain ⟨c, rest, -, hs⟩ | ⟨-, c, -, n, hs⟩ | hs := step_cases s
  · rw [hs] at e
    exact exec_slots (s := { s with pending := rest }) h e
  · rw [hs] at e
    exact exec_slots (s := { s with free := n }) h e
  · rw [hs] at e
    cases e
    unfold advanceCount
    split <;> exact h

end Sys2Proof.Machine

/-! # The outgoing line and the resets -/

namespace Sys2Proof.Machine

/-! ## The arbiter (R10) -/

theorem arbitrate_busy {s : State} (h : s.cl.line.isSome) : arbitrate s = s := by
  obtain ⟨x, hx⟩ := Option.isSome_iff_exists.1 h
  simp [arbitrate, hx]

theorem arbitrate_answer {s : State} {a : Answer} {rest : List Answer} (hl : s.cl.line = none)
    (ha : s.cl.answers = a :: rest) :
    arbitrate s = putCl { s.cl with answers := rest, line := some ⟨.answer a, s.count⟩ } s := by
  simp [arbitrate, hl, ha, putCl]

theorem arbitrate_notice {s : State} {n : Notice} (hl : s.cl.line = none) (ha : s.cl.answers = [])
    (hn : s.cl.notice = some n) :
    arbitrate s = putCl { s.cl with notice := none, line := some ⟨.notice n, s.count⟩ } s := by
  simp [arbitrate, hl, ha, hn, putCl]

theorem arbitrate_idle {s : State} (ha : s.cl.answers = []) (hn : s.cl.notice = none) : arbitrate s = s := by
  cases hl : s.cl.line <;> simp [arbitrate, hl, ha, hn]

/-! ## The end of a sent frame (R8, R13) -/

theorem exec_frameSent {s : State} (h : s.resetLine = false) : exec .frameSent s = .next (settle (frameSent s)) :=
  act_released h

theorem frameSent_notice {s : State} {n : Notice} {start : Nat} (h : s.cl.line = some ⟨.notice n, start⟩) :
    frameSent s = putCl { s.cl with line := none } s := by
  simp [frameSent, h]

theorem frameSent_overrun {s : State} {a : Answer} {start : Nat} (h : s.cl.line = some ⟨.answer a, start⟩)
    (ha : a.fromService = false) : frameSent s = putCl { s.cl with line := none } s := by
  simp [frameSent, h, ha]

theorem servesReset_of_inService {cl : ControlLink} {h : HeldRequest} (hs : cl.inService = some h) :
    servesReset cl = decide (h.request = .reset) := by
  simp [servesReset, hs]

theorem frameSent_service {s : State} {a : Answer} {start : Nat} {h : HeldRequest}
    (hl : s.cl.line = some ⟨.answer a, start⟩) (ha : a.fromService = true) (hs : s.cl.inService = some h)
    (hr : h.request ≠ .reset) : frameSent s = leaveService (putCl { s.cl with line := none } s) := by
  have hn : servesReset { s.cl with line := none } = false :=
    (servesReset_of_inService hs).trans (decide_eq_false hr)
  simp [frameSent, hl, ha, hn]

theorem frameSent_resetAnswer {s : State} {a : Answer} {start : Nat} {tag : Byte}
    (hl : s.cl.line = some ⟨.answer a, start⟩) (ha : a.fromService = true)
    (hs : s.cl.inService = some ⟨tag, .reset⟩) : frameSent s = requestResetNow (putCl { s.cl with line := none } s) := by
  have hn : servesReset { s.cl with line := none } = true := servesReset_of_inService hs
  simp [frameSent, hl, ha, hn]

theorem leaveService_alone {s : State} (h : s.cl.holding = none) :
    leaveService s = putCl { s.cl with inService := none } s := by
  simp [leaveService, h]

theorem leaveService_waiting {s : State} {w : HeldRequest} (h : s.cl.holding = some w) :
    leaveService s = serve w (putCl { s.cl with inService := none, holding := none } s) := by
  simp [leaveService, h]

/-- Settles O8: the frame on the line by its kind, then the arbiter by what waits. -/
theorem endOfAFrameFreesTheLine : Obligations.EndOfAFrameFreesTheLine := by
  refine ⟨?_, fun s hl => ⟨fun a rest => arbitrate_answer hl, fun n => arbitrate_notice hl, arbitrate_idle⟩,
    fun s => arbitrate_busy⟩
  rintro s ⟨frame, start⟩ hr hl
  refine ⟨?notice, ?overrun, ?alone, ?waiting⟩ <;> rw [exec_frameSent hr]
  case notice =>
    rintro n rfl
    rw [frameSent_notice hl]
  case overrun =>
    rintro a rfl ha
    rw [frameSent_overrun hl ha]
  case alone =>
    rintro a h rfl ha hs hq hw
    rw [frameSent_service hl ha hs hq, leaveService_alone (s := putCl { s.cl with line := none } s) hw]
  case waiting =>
    rintro a h w rfl ha hs hq hw
    rw [frameSent_service hl ha hs hq, leaveService_waiting (s := putCl { s.cl with line := none } s) hw]

/-! ## The resets (R13, R14) -/

/-- Outputs whose sources are all FIXED OPEN already have the values that a refresh gives them. -/
theorem refreshOutputs_reset {running : Bool} {s : State} (h : s.bo = BinaryOutputs.reset) :
    refreshOutputs running s = s := by
  have ho : (Vector.ofFn fun k : Fin 8 => sourceValue s.bs.poles s.bs.spring BinaryOutputs.reset.pattern running
      BinaryOutputs.reset.bits[k] BinaryOutputs.reset.sources[k]) = BinaryOutputs.reset.outputs := by
    ext k hk
    simp [BinaryOutputs.reset, sourceValue]
  unfold refreshOutputs
  rw [h, ho]
  exact congrArg (fun x => { s with bo := x }) h.symm

theorem settle_requestResetNow (s : State) : settle (requestResetNow s) = requestResetNow s := by
  unfold settle
  rw [refreshOutputs_reset rfl, arbitrate_idle rfl rfl]

/-- Settles O7: the request reset is complete, and the end of the step changes nothing of it. -/
theorem endOfTheResetAnswerResetsThePart : Obligations.EndOfTheResetAnswerResetsThePart := by
  intro tag a start s hr hl ha hs
  refine ⟨requestResetNow (putCl { s.cl with line := none } s), ?_, rfl, rfl, ?_, rfl, rfl, rfl, rfl, rfl, rfl, rfl, rfl,
    rfl, rfl, rfl, hr, rfl, rfl, rfl, rfl⟩
  · rw [exec_frameSent hr, frameSent_resetAnswer hl ha hs, settle_requestResetNow]
  · intro k
    simp [requestResetNow, ContactInputs.requestReset, ContactInput.requestReset]

/-- R14: while the RESET line is asserted no command but a reset row has an effect. -/
theorem exec_asserted {c : Instr} {s : State} (h : s.resetLine = true) (hc : ¬ IsResetRow c) : exec c s = .next s := by
  obtain hc' | ⟨f, hf, -⟩ := exec_cases c s
  · exact absurd hc' hc
  · rw [hf, act_asserted h]

/-- A property of every element of a vector of equal elements. -/
theorem forall_replicate {α : Type} {n : Nat} (x : α) (p : α → Prop) (h : p x) (k : Fin n) :
    p (Vector.replicate n x)[k] := by simpa using h

/-- Settles O33: the reset rows and the other rows on an asserted line, then the reset state value by value. -/
theorem hardwareResetsAndTheResetLine : Obligations.HardwareResetsAndTheResetLine := by
  refine ⟨fun s => ⟨rfl, rfl, rfl⟩, fun c s h h1 h2 h3 => exec_asserted h (by simp [IsResetRow, h1, h2, h3]),
    rfl, rfl, rfl, rfl, rfl, rfl, rfl, rfl, ?inputs, rfl, rfl, ?channels, rfl, rfl, rfl, rfl, rfl, rfl, ?groups, rfl,
    ?outputs, rfl, ?entries, ?counters, rfl, rfl, rfl⟩
  case inputs => exact forall_replicate ContactInput.reset (· = _) rfl
  case channels =>
    exact fun ch => ⟨forall_replicate ChannelSettings.reset (· = _) rfl ch, forall_replicate (0 : Int) (· = _) rfl ch,
      forall_replicate LiveRecord.cleared (· = _) rfl ch⟩
  case groups => rintro (_ | _) <;> rfl
  case outputs =>
    exact fun k => ⟨forall_replicate OutSource.fixedOpen (· = _) rfl k, forall_replicate (0 : Fin 8) (· = _) rfl k,
      forall_replicate false (· = _) rfl k⟩
  case entries => exact forall_replicate (none : Option Entry) (· = _) rfl
  case counters => exact forall_replicate CounterSource.none (· = _) rfl

theorem outputsFollow_reset : outputsFollow State.reset := by
  intro k
  simp [State.reset, BinaryOutputs.reset, sourceValue]

/-- The state of reset is what a hardware reset leaves of itself. -/
theorem runCoherent_reset : runCoherent State.reset := hardwareReset_coherent false State.reset

/-- Settles O60: the outputs, the run and the slots of the reset state, each by its own lemma. -/
theorem resetIsCoherent : Obligations.ResetIsCoherent :=
  ⟨outputsFollow_reset, runCoherent_reset, slotsCoherent_reset⟩

end Sys2Proof.Machine

/-! # The request slot (R4, R5, R6) -/

namespace Sys2Proof.Machine

/-! ## What `submit` does with a request -/

theorem submit_held {h : HeldRequest} {s : State} (hs : s.cl.inService.isSome) (hh : s.cl.holding = none) :
    submit h s = putCl { s.cl with holding := some h } s := by
  obtain ⟨x, hx⟩ := Option.isSome_iff_exists.1 hs
  simp [submit, hx, hh]

theorem submit_overrun {h : HeldRequest} {s : State} (hs : s.cl.inService.isSome) (hh : s.cl.holding.isSome)
    (hn : overrunCount s.cl.answers < 8) : submit h s = pushAnswer (overrunAnswer h) s := by
  obtain ⟨x, hx⟩ := Option.isSome_iff_exists.1 hs
  obtain ⟨y, hy⟩ := Option.isSome_iff_exists.1 hh
  simp [submit, hx, hy, hn]

theorem submit_discarded {h : HeldRequest} {s : State} (hs : s.cl.inService.isSome) (hh : s.cl.holding.isSome)
    (hn : 8 ≤ overrunCount s.cl.answers) : submit h s = s := by
  obtain ⟨x, hx⟩ := Option.isSome_iff_exists.1 hs
  obtain ⟨y, hy⟩ := Option.isSome_iff_exists.1 hh
  simp [submit, hx, hy, hn]

/-- A request beside a request in service is held, refused with OVERRUN, or discarded. -/
theorem act_submit_beside {h : HeldRequest} {s : State} (hr : s.resetLine = false) (hs : s.cl.inService.isSome) :
    (s.cl.holding = none → act (submit h) s = .next (settle (putCl { s.cl with holding := some h } s))) ∧
    (s.cl.holding.isSome → overrunCount s.cl.answers < 8 →
      act (submit h) s = .next (settle (pushAnswer ⟨h.request.kind, h.tag, .overrun, [], false⟩ s))) ∧
    (s.cl.holding.isSome → 8 ≤ overrunCount s.cl.answers → act (submit h) s = .next (settle s)) := by
  rw [act_released hr]
  refine ⟨fun hh => ?_, fun hh hn => ?_, fun hh hn => ?_⟩
  · rw [submit_held hs hh]
  · rw [submit_overrun hs hh hn]; rfl
  · rw [submit_discarded hs hh hn]

/-! ## Which requests reach the slot -/

/-- A request command stands for its good frame (log 8). -/
theorem exec_requestOf {c : Instr} {h : HeldRequest} (e : requestOf c = some h) (s : State) :
    exec c s = act (submit h) s := by
  cases c <;> cases e <;> rfl

theorem exec_frameReceived_long {kind tag : Byte} {body : List Byte} {s : State} (hr : s.resetLine = false)
    (hb : 1024 < body.length) : exec (.frameReceived kind tag body) s = .next (settle (putReceiver .hunt s)) := by
  have hf : receiveFrame kind tag body s = putReceiver .hunt s := if_neg (by omega)
  show act (receiveFrame kind tag body) s = _
  rw [act_released hr, hf]

/-- A frame that can stand on the line is its request, at a receiver back in HUNT. -/
theorem exec_frameReceived {kind tag : Byte} {body : List Byte} {s : State} (hr : s.resetLine = false)
    (hb : body.length ≤ 1024) :
    exec (.frameReceived kind tag body) s = act (submit ⟨tag, parseRequest kind body⟩) (putReceiver .hunt s) := by
  have hf : receiveFrame kind tag body s = submit ⟨tag, parseRequest kind body⟩ (putReceiver .hunt s) := if_pos hb
  have hr' : (putReceiver .hunt s).resetLine = false := hr
  show act (receiveFrame kind tag body) s = _
  rw [act_released hr, act_released hr', hf]

theorem parseRequest_unknown {kind : Byte} (body : List Byte) (h : requestLengths kind.toNat = none) :
    parseRequest kind body = .unknownKind kind := by
  simp [parseRequest, h]

theorem parseRequest_wrongLength {kind : Byte} {body : List Byte} {least greatest : Nat}
    (h : requestLengths kind.toNat = some (least, greatest)) (hb : ¬ (least ≤ body.length ∧ body.length ≤ greatest)) :
    parseRequest kind body = .wrongLength kind := by
  simp [parseRequest, h, hb]

/-- A request taken at once is answered as its owner replies; the answer names the kind of the frame. -/
theorem act_submit_parsed {kind tag : Byte} {body : List Byte} {s : State} (l : listening s) :
    let done := carryOut (parseRequest kind body) (putCl { s.cl with inService := some ⟨tag, parseRequest kind body⟩ } s)
    act (submit ⟨tag, parseRequest kind body⟩) s =
      .next (settle (pushAnswer ⟨kind, tag, done.1.status, done.1.payload, true⟩ done.2)) := by
  simp only [act_submit l, serviceAnswer, parseRequest_kind]

/-- Settles O5: a frame is its request at the slot; the slot is empty, half full or full. -/
theorem framesAreServedHeldOrRefused : Obligations.FramesAreServedHeldOrRefused := by
  refine ⟨?frames, ?commands, fun _ _ _ => rfl⟩
  case commands =>
    intro c h s hc hr hs
    rw [exec_requestOf hc]
    exact act_submit_beside hr hs
  case frames =>
    intro kind tag body s0 hr s h u
    have released : s.resetLine = false := hr
    have listens (hs : s.cl.inService = none) : listening s := ⟨hr, hs⟩
    have frame (hb : body.length ≤ 1024) : exec (.frameReceived kind tag body) s0 = act (submit h) s :=
      exec_frameReceived hr hb
    have hk : h.request.kind = kind := parseRequest_kind kind body
    refine ⟨exec_frameReceived_long hr, ?served, ?held, ?overrun, ?discarded, ?unknown, ?length⟩
    case served =>
      intro hb hs
      rw [frame hb]
      exact act_submit_parsed (listens hs)
    case held =>
      intro hb hs hh
      rw [frame hb]
      exact (act_submit_beside released hs).1 hh
    case overrun =>
      intro hb hs hh hn
      rw [frame hb]
      have ho := (act_submit_beside (h := h) released hs).2.1 hh hn
      rwa [hk] at ho
    case discarded =>
      intro hb hs hh hn
      rw [frame hb]
      exact (act_submit_beside released hs).2.2 hh hn
    case unknown =>
      intro hb hs hl
      have hq : h = ⟨tag, .unknownKind kind⟩ := congrArg (HeldRequest.mk tag) (parseRequest_unknown body hl)
      rw [frame hb, hq]
      exact act_refuse (listens hs) fun _ => rfl
    case length =>
      intro least greatest hb hs hl hn
      have hq : h = ⟨tag, .wrongLength kind⟩ := congrArg (HeldRequest.mk tag) (parseRequest_wrongLength hl hn)
      rw [frame hb, hq]
      exact act_refuse (listens hs) fun _ => rfl

end Sys2Proof.Machine

/-! # The receiver (R1, R2, R3)

`receiveByte` is stated once per phase, on a state whose receiver has just been put in that phase; any state is such a
state (`putReceiver_self`). -/

namespace Sys2Proof.Machine

/-! ## One byte in each phase (R2) -/

theorem putReceiver_self {r : Receiver} {s : State} (h : s.cl.receiver = r) : putReceiver r s = s := by
  subst h; rfl

@[simp] theorem putReceiver_putReceiver (r q : Receiver) (s : State) :
    putReceiver r (putReceiver q s) = putReceiver r s := rfl

/-- HUNT waits for the first sync byte. -/
theorem receiveByte_hunt (b : Byte) (s : State) :
    receiveByte b (putReceiver .hunt s) = putReceiver (if b = 0xD1 then .sync else .hunt) s := by
  by_cases h : b = 0xD1#8 <;> simp [receiveByte, h]

theorem receiveByte_sync (b : Byte) (s : State) :
    receiveByte b (putReceiver .sync s) =
      putReceiver (if b = 0x2E then .header [] else if b = 0xD1 then .sync else .hunt) s := by
  by_cases h : b = 0x2E#8
  · simp [receiveByte, h]
  · by_cases h' : b = 0xD1#8 <;> simp [receiveByte, h, h']

theorem receiveByte_header (f : List Byte) (b : Byte) (s : State) :
    receiveByte b (putReceiver (.header f) s) = putReceiver (receiveHeader (f ++ [b])) s := rfl

theorem receiveByte_body (n : Nat) (kind tag : Byte) (got : List Byte) (b : Byte) (s : State) :
    receiveByte b (putReceiver (.body n kind tag got) s) = putReceiver (receiveBody n kind tag (got ++ [b])) s := rfl

theorem receiveByte_checkLow (kind tag : Byte) (body : List Byte) (b : Byte) (s : State) :
    receiveByte b (putReceiver (.check kind tag body none) s) = putReceiver (.check kind tag body (some b)) s := rfl

theorem receiveByte_checkHigh (kind tag : Byte) (body : List Byte) (low b : Byte) (s : State) :
    receiveByte b (putReceiver (.check kind tag body (some low)) s) =
      if goodCheck kind tag body low b then submitFrame kind tag body (putReceiver .hunt s) else putReceiver .hunt s :=
  rfl

/-! ## Header fields, body and check value (R1) -/

theorem leValue_two (low high : Byte) : leValue [low, high] = low.toNat + 256 * high.toNat := by
  simp [leValue]

theorem receiveHeader_lengthLow (low : Byte) : receiveHeader [low] = .header [low] := rfl

theorem receiveHeader_kind (low high kind : Byte) : receiveHeader [low, high, kind] = .header [low, high, kind] := rfl

/-- The first of the two length bytes, and the kind, are taken whatever they are. -/
theorem receiveHeader_plain {f : List Byte} (h : f = [] ∨ f.length = 2) (b : Byte) :
    receiveHeader (f ++ [b]) = .header (f ++ [b]) := by
  obtain rfl | h := h
  · exact receiveHeader_lengthLow b
  · obtain ⟨x, y, rfl⟩ := List.length_eq_two.1 h
    exact receiveHeader_kind x y b

theorem receiveHeader_length (low high : Byte) :
    receiveHeader [low, high] = if 1024 < low.toNat + 256 * high.toNat then .hunt else .header [low, high] := by
  rw [← leValue_two]; rfl

theorem receiveHeader_tag (low high kind tag : Byte) :
    receiveHeader [low, high, kind, tag] =
      if low.toNat + 256 * high.toNat = 0 then .check kind tag [] none
      else .body (low.toNat + 256 * high.toNat) kind tag [] := by
  rw [← leValue_two]; rfl

/-- The two bytes that carry a check value are the ones from which it is read. -/
theorem crcBytes_eq_iff (crc : Half) (low high : Byte) :
    crcBytes crc = [low, high] ↔ crc = BitVec.ofNat 16 (leValue [low, high]) := by
  have hc := crc.isLt
  have hl := low.isLt
  have hh := high.isLt
  rw [leValue_two]
  simp only [crcBytes, leBytes_two, List.cons.injEq, and_true, ← BitVec.toNat_inj, BitVec.toNat_ofNat]
  omega

theorem goodCheck_iff (kind tag : Byte) (body : List Byte) (low high : Byte) :
    goodCheck kind tag body low high = true ↔
      crcBytes (crc16 (leBytes 2 body.length ++ [kind, tag] ++ body)) = [low, high] := by
  rw [crcBytes_eq_iff]
  exact decide_eq_true_iff

/-! ## A byte on the line (R2, R3) -/

theorem gapPassed_hunt {start : Nat} {cl : ControlLink} (h : cl.receiver = .hunt) : gapPassed start cl = false := by
  simp [gapPassed, h]

theorem gapPassed_early {start : Nat} {cl : ControlLink} (h : start ≤ cl.lastStop + 2000) :
    gapPassed start cl = false := by
  simp only [gapPassed, Bool.and_eq_false_iff, decide_eq_false_iff_not]
  exact .inr (by omega)

theorem gapPassed_late {start : Nat} {cl : ControlLink} (hr : cl.receiver ≠ .hunt)
    (h : cl.lastStop + 2000 < start) : gapPassed start cl = true := by
  simp [gapPassed, hr, h]

theorem exec_byteReceived {start : Nat} {b : Byte} {stop : Bool} {s : State} (hr : s.resetLine = false) :
    exec (.byteReceived start b stop) s = .next (settle (receiveLineByte start b stop s)) := act_released hr

/-- An invalid stop bit discards what stands in the receiver. -/
theorem receiveLineByte_badStop (start : Nat) (b : Byte) (s : State) :
    receiveLineByte start b false s = putCl { s.cl with receiver := .hunt, lastStop := s.count } s := by
  unfold receiveLineByte
  cases gapPassed start s.cl <;> rfl

/-- A byte in time meets the phase in which the receiver stands. -/
theorem receiveLineByte_inTime {start : Nat} {b : Byte} {s : State} (hg : gapPassed start s.cl = false) :
    receiveLineByte start b true s =
      putCl { (receiveByte b s).cl with lastStop := s.count } (receiveByte b s) := by
  simp [receiveLineByte, hg]

/-- A byte after the gap limit meets a receiver in HUNT. -/
theorem receiveLineByte_late {start : Nat} {b : Byte} {s : State} (hg : gapPassed start s.cl = true) :
    receiveLineByte start b true s =
      putCl { s.cl with receiver := if b = 0xD1 then .sync else .hunt, lastStop := s.count } s := by
  simp only [receiveLineByte, hg, if_true, receiveByte_hunt]
  rfl

/-- A byte in time that only moves the receiver, from phase `q` to phase `r`. -/
theorem exec_byteReceived_moves {start : Nat} {b : Byte} {q r : Receiver} {s : State} (hr : s.resetLine = false)
    (hg : gapPassed start s.cl = false) (hq : s.cl.receiver = q)
    (e : receiveByte b (putReceiver q s) = putReceiver r s) :
    exec (.byteReceived start b true) s =
      .next (settle (putCl { s.cl with receiver := r, lastStop := s.count } s)) := by
  rw [putReceiver_self hq] at e
  rw [exec_byteReceived hr, receiveLineByte_inTime hg, e]
  rfl

theorem exec_byteReceived_badStop {start : Nat} {b : Byte} {s : State} (hr : s.resetLine = false) :
    exec (.byteReceived start b false) s =
      .next (settle (putCl { s.cl with receiver := .hunt, lastStop := s.count } s)) := by
  rw [exec_byteReceived hr, receiveLineByte_badStop]

/-- Settles O9: in HUNT, after the gap limit, and in time by the phase of the receiver. -/
theorem bytesMoveTheReceiver : Obligations.BytesMoveTheReceiver := by
  intro start b s hr into
  refine ⟨fun hh => ⟨?_, exec_byteReceived_badStop hr⟩, fun hn => ⟨exec_byteReceived_badStop hr, ?late, ?gap, ?inTime⟩⟩
  · exact exec_byteReceived_moves hr (gapPassed_hunt hh) hh (receiveByte_hunt b s)
  case late =>
    intro h
    rw [exec_byteReceived hr, receiveLineByte_late (gapPassed_late hn h)]
  case gap =>
    intro h
    have hg : interByteGap s = putReceiver .hunt s := if_pos (gapPassed_late hn h)
    show act interByteGap s = _
    rw [act_released hr, hg]
  case inTime =>
    intro h
    have hg := gapPassed_early h
    refine ⟨?sync, ?header, ?length, ?tag, ?body, ?checkLow, ?checkBad, ?checkGood⟩
    case sync =>
      intro hq
      exact exec_byteReceived_moves hr hg hq (receiveByte_sync b s)
    case header =>
      intro f hq hf
      refine exec_byteReceived_moves hr hg hq ?_
      rw [receiveByte_header, receiveHeader_plain hf]
    case length =>
      intro low hq
      refine exec_byteReceived_moves hr hg hq ?_
      rw [receiveByte_header, ← receiveHeader_length]
      rfl
    case tag =>
      intro low high kind hq
      refine exec_byteReceived_moves hr hg hq ?_
      rw [receiveByte_header, ← receiveHeader_tag]
      rfl
    case body =>
      intro n kind tag got hq
      refine exec_byteReceived_moves hr hg hq ?_
      rw [receiveByte_body, receiveBody, List.length_append, List.length_singleton]
    case checkLow =>
      intro kind tag body hq
      exact exec_byteReceived_moves hr hg hq (receiveByte_checkLow kind tag body b s)
    case checkBad =>
      intro kind tag body low hq hc
      refine exec_byteReceived_moves hr hg hq ?_
      rw [receiveByte_checkHigh, if_neg (mt (goodCheck_iff kind tag body low b).1 hc)]
    case checkGood =>
      intro kind tag body low hq hc
      have e := receiveByte_checkHigh kind tag body low b s
      rw [putReceiver_self hq, if_pos ((goodCheck_iff kind tag body low b).2 hc)] at e
      rw [exec_byteReceived hr, receiveLineByte_inTime hg, e]

/-! ## A whole frame -/

/-- The bytes of a body, taken one after another, stand in CHECK once the last has come. -/
theorem foldl_receiveByte_body {n : Nat} (kind tag : Byte) {rest got : List Byte} (s : State)
    (hn : got.length + rest.length = n) (hr : rest ≠ []) :
    rest.foldl (fun s b => receiveByte b s) (putReceiver (.body n kind tag got) s) =
      putReceiver (.check kind tag (got ++ rest) none) s := by
  induction rest generalizing got with
  | nil => exact absurd rfl hr
  | cons b rest ih =>
    rw [List.foldl_cons, receiveByte_body, receiveBody, List.length_append, List.length_singleton]
    rw [List.length_cons] at hn
    cases rest with
    | nil =>
      rw [List.length_nil] at hn
      rw [if_pos (by omega)]
      rfl
    | cons c rest =>
      rw [List.length_cons] at hn
      rw [if_neg (by omega), ih (by simp; omega) (by simp), List.append_assoc, List.singleton_append]

/-- The sync pair, the length of the body, the kind and the tag, taken from HUNT. -/
theorem foldl_receiveByte_header (kind tag : Byte) {n : Nat} (hn : n ≤ 1024) (s : State) :
    ([0xD1, 0x2E] ++ leBytes 2 n ++ [kind, tag]).foldl (fun s b => receiveByte b s) (putReceiver .hunt s) =
      putReceiver (if n = 0 then .check kind tag [] none else .body n kind tag []) s := by
  have hv : (BitVec.ofNat 8 n).toNat + 256 * (BitVec.ofNat 8 (n / 256)).toNat = n := by
    simp only [BitVec.toNat_ofNat]; omega
  have hl : ¬ 1024 < n := by omega
  simp only [leBytes_two, List.cons_append, List.nil_append, List.foldl_cons, List.foldl_nil, receiveByte_hunt, if_true,
    receiveByte_sync, receiveByte_header, receiveHeader_lengthLow, receiveHeader_length, receiveHeader_kind,
    receiveHeader_tag, hv, hl, if_false]

/-- The two bytes of the good check value hand the frame over. -/
theorem foldl_receiveByte_check (kind tag : Byte) (body : List Byte) (s : State) :
    (crcBytes (crc16 (frameCovered kind tag body))).foldl (fun s b => receiveByte b s)
        (putReceiver (.check kind tag body none) s) = submitFrame kind tag body (putReceiver .hunt s) := by
  obtain ⟨low, high, hc⟩ : ∃ low high, crcBytes (crc16 (frameCovered kind tag body)) = [low, high] := ⟨_, _, rfl⟩
  rw [hc, List.foldl_cons, List.foldl_cons, List.foldl_nil, receiveByte_checkLow, receiveByte_checkHigh,
    if_pos ((goodCheck_iff kind tag body low high).2 hc)]

theorem frameBytes_eq (kind tag : Byte) (body : List Byte) :
    frameBytes kind tag body =
      [0xD1, 0x2E] ++ leBytes 2 body.length ++ [kind, tag] ++ body ++ crcBytes (crc16 (frameCovered kind tag body)) := by
  simp [frameBytes, frameCovered]

/-- Settles O4: header, body (by induction on its bytes) and check value in turn. -/
theorem frameBytesAreTheFrame : Obligations.FrameBytesAreTheFrame := by
  intro kind tag body s hb hs
  have hbody : body.foldl (fun s b => receiveByte b s)
      (putReceiver (if body.length = 0 then .check kind tag [] none else .body body.length kind tag []) s) =
      putReceiver (.check kind tag body none) s := by
    cases body with
    | nil => rfl
    | cons b rest => exact foldl_receiveByte_body kind tag s (got := []) (by simp) (by simp)
  have hself : putReceiver .hunt s = s := putReceiver_self hs
  rw [frameBytes_eq, List.foldl_append, List.foldl_append, ← hself, foldl_receiveByte_header kind tag hb, hbody,
    foldl_receiveByte_check, hself]

end Sys2Proof.Machine

/-! # IDENT, STATUS, RESET and the snapshot (R12, R13, R203) -/

namespace Sys2Proof.Machine

/-! ## What a snapshot shows (R12) -/

theorem inRun_iff (s : State) : s.inRun = true ↔ s.sq.state = .running ∨ s.sq.state = .pointing := by
  simp [State.inRun]

theorem pendingTarget_eq_some (q : Sequencer) (n : Fin 24) :
    q.pendingTarget = some n ↔ q.state = .pointing ∧ ∃ y, q.taken = some y ∧ y.target = .state n := by
  unfold Sequencer.pendingTarget
  split
  · next x hs hx =>
    cases ht : x.target <;> simp [hs, hx, ht]
  · next hn =>
    simp only [reduceCtorEq, false_iff, not_and, not_exists]
    exact fun hs y hy _ => hn y hs hy

/-- The name of a position is the position without its start time. -/
theorem position_name_iff (x : Position) :
    (x.name = .closed ↔ x = .closed) ∧ (x.name = .tripping ↔ ∃ a, x = .tripping a) ∧
    (x.name = .arcing ↔ ∃ a, x = .arcing a) ∧ (x.name = .opened ↔ x = .opened) ∧
    (x.name = .closing ↔ ∃ a, x = .closing a) := by
  cases x <;> simp [Position.name]

theorem isCharged_iff (x : Spring) : x.isCharged = true ↔ x = .charged := by
  cases x <;> simp [Spring.isCharged]

theorem getLsbD_ofNat_bitsOf {w n k : Nat} (f : Nat → Bool) (hn : n ≤ w) :
    (BitVec.ofNat w (bitsOf n f)).getLsbD k = (decide (k < n) && f k) := by
  rw [BitVec.getLsbD_ofNat, bitsOf_testBit]
  by_cases hk : k < n
  · simp [hk, show k < w by omega]
  · simp [hk]

theorem settledLevel_sync (ci : ContactInputs) : settledLevel ci 0 = ci.sync.settled := rfl

theorem settledLevel_input (ci : ContactInputs) (k : Fin 12) :
    settledLevel ci (k.val + 1) = ci.inputs[k].settled := by
  have hk := k.isLt
  simp [settledLevel, hk]

theorem snapshotShows_snapshot (s : State) : snapshotShows s.snapshot s := by
  refine ⟨⟨rfl, rfl, rfl⟩, ?current, pendingTarget_eq_some s.sq, ?poles, isCharged_iff _, ⟨rfl, rfl⟩, ?levels, ?outputs,
    ⟨rfl, rfl, rfl, rfl, rfl⟩, ?groups, rfl⟩
  case current => simp only [State.snapshot, inRun_iff]
  case poles => rintro (_ | _ | _) <;> exact position_name_iff _
  case levels =>
    have hl (k : Nat) : s.snapshot.levels.getLsbD k = (decide (k < 13) && settledLevel s.ci k) :=
      getLsbD_ofNat_bitsOf _ (by omega)
    refine ⟨?_, fun k => ?_, fun k hk => ?_⟩
    · rw [hl, settledLevel_sync]; rfl
    · rw [hl, settledLevel_input, decide_eq_true (by omega), Bool.true_and]
    · rw [hl, decide_eq_false (by omega), Bool.false_and]
  case outputs =>
    intro k
    have hk := k.isLt
    show (BitVec.ofNat 8 (bitsOf 8 _)).getLsbD k.val = _
    rw [getLsbD_ofNat_bitsOf _ le_rfl]
    simp [hk]
  case groups => rintro (_ | _) <;> rfl

/-! ## The 37 bytes (R203) -/

/-- The two bytes of a field are its value modulo 2¹⁶. -/
theorem half_of_bytes (n : Nat) : (BitVec.ofNat 8 n).toNat + 256 * (BitVec.ofNat 8 (n / 256)).toNat = n % 65536 := by
  simp only [BitVec.toNat_ofNat, Nat.reducePow]; omega

/-- The four bytes of a field are its value modulo 2³². -/
theorem word_of_bytes (n : Nat) :
    (BitVec.ofNat 8 n).toNat + 256 * (BitVec.ofNat 8 (n / 256)).toNat +
      65536 * ((BitVec.ofNat 8 (n / 256 / 256)).toNat + 256 * (BitVec.ofNat 8 (n / 256 / 256 / 256)).toNat) =
    n % 4294967296 := by
  simp only [BitVec.toNat_ofNat, Nat.reducePow]; omega

/-- The four bytes of a signed field are its two's complement pattern. -/
theorem signed_of_bytes (z : Int) : BitVec.ofNat 32 ((BitVec.ofInt 32 z).toNat % 4294967296) = BitVec.ofInt 32 z := by
  rw [← BitVec.toNat_inj, BitVec.toNat_ofNat]
  have h := (BitVec.ofInt 32 z).isLt
  omega

theorem vector_four (v : Vector Nat 4) : ∃ c0 c1 c2 c3 h, v = ⟨#[c0, c1, c2, c3], h⟩ := by
  refine ⟨v[0], v[1], v[2], v[3], rfl, ?_⟩
  ext k hk
  match k, hk with
  | 0, _ | 1, _ | 2, _ | 3, _ => rfl

theorem SeqState.byte_eq (x : SeqState) :
    (BitVec.ofNat 8 x.code).toNat = codeIn [.idle, .armed, .running, .pointing, .gap] x := by cases x <;> rfl

theorem PositionName.byte_eq (x : PositionName) :
    (BitVec.ofNat 8 x.code).toNat = codeIn [.closed, .tripping, .arcing, .opened, .closing] x := by cases x <;> rfl

theorem GroupState.byte_eq (x : GroupState) :
    (BitVec.ofNat 8 x.code).toNat = codeIn [.off, .settling, .ready, .fault] x := by cases x <;> rfl

theorem TbState.byte_eq (x : TbState) :
    (BitVec.ofNat 8 x.code).toNat = codeIn [.free, .calibrating, .locked, .holdover] x := by cases x <;> rfl

/-- Absent is 0, and an outcome is 1 more than its code (R203). -/
theorem RunOutcome.byte_eq (x : Option RunOutcome) :
    (BitVec.ofNat 8 (x.elim 0 (·.code + 1))).toNat =
      codeIn [none, some .complete, some .halted, some .ampFault, some .table, some .limit] x := by
  rcases x with _ | x
  · rfl
  · cases x <;> rfl

theorem stateIndex_byte_eq (x : Option (Fin 24)) :
    (BitVec.ofNat 8 (stateIndexCode x)).toNat = x.elim 255 (·.val) := by
  cases x with
  | none => rfl
  | some n => exact (BitVec.toNat_ofNat n.val 8).trans (Nat.mod_eq_of_lt (by omega))

theorem spring_byte_eq (x : Bool) : (BitVec.ofNat 8 (boolCode (!x))).toNat = codeIn [true, false] x := by
  cases x <;> rfl

theorem flags_byte_eq (pending epoch : Bool) :
    (BitVec.ofNat 8 (boolCode pending + 2 * boolCode epoch)).toNat =
      (if pending then 1 else 0) + (if epoch then 2 else 0) := by
  cases pending <;> cases epoch <;> rfl

/-- A bit set of 16 bits stands in its two bytes. -/
theorem bits_of_bytes (x : BitVec 16) :
    (BitVec.ofNat 8 x.toNat).toNat + 256 * (BitVec.ofNat 8 (x.toNat / 256)).toNat = x.toNat := by
  rw [half_of_bytes]
  exact Nat.mod_eq_of_lt x.isLt

theorem snapshotLaidOut_bytes (x : Snapshot) : snapshotLaidOut x x.bytes := by
  obtain ⟨state, number, current, target, outcome, ⟨a, b, c⟩, spring, marks, counters, levels, outputs, tb, z, pending,
    second, epoch, ⟨v, i⟩, fill⟩ := x
  obtain ⟨c0, c1, c2, c3, h, rfl⟩ := vector_four counters
  rw [Snapshot.bytes_eq]
  simp only [leSigned_four, leBytes_four, leBytes_two, List.cons_append, List.nil_append]
  refine ⟨rfl, state.byte_eq, half_of_bytes number, stateIndex_byte_eq current, stateIndex_byte_eq target,
    RunOutcome.byte_eq outcome, ⟨a.byte_eq, b.byte_eq, c.byte_eq⟩, spring_byte_eq spring, bits_of_bytes marks, ?counters,
    bits_of_bytes levels, rfl, tb.byte_eq, ?correction, flags_byte_eq pending.isSome epoch, ?waiting,
    word_of_bytes second, ⟨v.byte_eq, i.byte_eq⟩, half_of_bytes fill⟩
  case counters =>
    intro k
    match k with
    | 0 | 1 | 2 | 3 => exact BitVec.toNat_ofNat _ 8
  case correction => exact (congrArg (BitVec.ofNat 32) (word_of_bytes _)).trans (signed_of_bytes z)
  case waiting => exact (congrArg (BitVec.ofNat 32) (word_of_bytes _)).trans (signed_of_bytes _)

theorem NoticeCause.code_eq (x : NoticeCause) :
    x.code = 1 + codeIn [.runEnd, .chainEnd, .ampFault, .timebase, .fill] x := by cases x <;> rfl

/-- A notice's body is its cause, numbered from 1, and its snapshot. -/
theorem notice_body_eq (n : Notice) :
    n.body = BitVec.ofNat 8 (1 + codeIn [.runEnd, .chainEnd, .ampFault, .timebase, .fill] n.cause) ::
      n.snapshot.bytes := by
  rw [Notice.body, NoticeCause.code_eq, byteOf, List.singleton_append]

/-- Part code 620 (026Ch) and revision 1. -/
theorem ident_payload : leBytes 2 620 ++ byteOf 1 = [0x6C, 0x02, 0x01] := by decide

/-- Settles O6: the three requests at a listening link, then the snapshot and its bytes. -/
theorem identStatusAndResetAnswer : Obligations.IdentStatusAndResetAnswer := by
  refine ⟨fun tag s l => ⟨?ident, ?status, (snapshotLaidOut_bytes s.snapshot).1, ?reset⟩, snapshotShows_snapshot,
    snapshotLaidOut_bytes, notice_body_eq⟩
  case ident =>
    rw [exec_requestOf rfl, ← ident_payload]
    exact act_answer l (fun _ => rfl) rfl
  case status =>
    rw [exec_requestOf rfl]
    exact act_answer l (fun _ => rfl) rfl
  case reset =>
    rw [exec_requestOf rfl]
    exact act_answer l (fun _ => rfl) rfl

end Sys2Proof.Machine

/-! # An empty queue: the events that are due (log 1, log 2) -/

namespace Sys2Proof.Machine

/-! ## The step on an empty queue -/

theorem step_asserted {s : State} (h : s.pending = []) (hr : s.resetLine = true) : step s = .next s := by
  rw [step_idle h (if_pos hr)]
  exact congrArg Host.Outcome.next (if_pos hr)

theorem step_nothingDue {s : State} (h : s.pending = []) (hr : s.resetLine = false) (hd : dueEvents s = []) :
    step s = .next { s with count := s.count + 1 } := by
  rw [step_idle h (by simp [nextDue, hr, hd])]
  simp [advanceCount, hr]

theorem step_oneDue {s : State} {c : Instr} (h : s.pending = []) (hr : s.resetLine = false)
    (hd : dueEvents s = [c]) : step s = exec c s :=
  step_due (due := (c, s)) h (by simp [nextDue, hr, hd])

/-- Of several events due one is taken, and a free choice is consumed. -/
theorem nextDue_several {s : State} (hr : s.resetLine = false) (hd : 2 ≤ (dueEvents s).length) :
    ∃ c ∈ dueEvents s, nextDue s = some (c, { s with free := s.free + 1 }) := by
  match e : dueEvents s with
  | [] => simp [e] at hd
  | [c] => simp [e] at hd
  | c :: d :: rest =>
    have hn : nextDue s = some ((c :: d :: rest).getD (Config.dueChoice s.free % ((d :: rest).length + 1)) c,
        { s with free := s.free + 1 }) := by
      simp [nextDue, hr, e]
    exact ⟨_, e ▸ (nextDue_some hn).1, hn⟩

theorem step_severalDue {s : State} (h : s.pending = []) (hr : s.resetLine = false)
    (hd : 2 ≤ (dueEvents s).length) : ∃ c ∈ dueEvents s, step s = exec c { s with free := s.free + 1 } := by
  obtain ⟨c, hc, hn⟩ := nextDue_several hr hd
  exact ⟨c, hc, step_due h hn⟩

/-! ## Which events are due -/

theorem mem_dueOne {due : Bool} {c d : Instr} : c ∈ dueOne due d ↔ c = d ∧ due = true := by
  cases due <;> simp [dueOne]

/-- The due events, by their rows. -/
theorem mem_dueEvents {s : State} {c : Instr} :
    c ∈ dueEvents s ↔
      (c = .frameSent ∧ frameSentDue s = true) ∨ (c = .internalMark ∧ internalMarkDue s = true) ∨
      (c = .contactSample s.contactLines s.syncLine ∧ contactSampleDue s = true) ∨
      (∃ n, c = .qualification n ∧ qualificationDue n s = true) ∨
      (∃ n, c = .windowEnd n ∧ windowEndDue n s = true) ∨ (∃ g, c = .linkLost g ∧ linkLossDue g s = true) ∨
      (c = .gridInstant ∧ gridDue s = true) ∨ (c = .gapEnd ∧ gapEndDue s = true) := by
  have hg : (∃ g, c = .linkLost g ∧ linkLossDue g s = true) ↔
      (c = .linkLost .v ∧ linkLossDue .v s = true) ∨ (c = .linkLost .i ∧ linkLossDue .i s = true) :=
    ⟨fun ⟨g, h⟩ => match g with | .v => .inl h | .i => .inr h, fun h => h.elim (⟨_, ·⟩) (⟨_, ·⟩)⟩
  simp only [dueEvents, List.mem_append, List.mem_flatMap, List.mem_finRange, true_and, mem_dueOne, hg, or_assoc]

/-- The rows that can be due, numbered in the order in which `dueEvents` lists them. -/
def dueRank : Instr → Nat
  | .frameSent => 0
  | .internalMark => 1
  | .contactSample .. => 2
  | .qualification n => 3 + n.val
  | .windowEnd n => 16 + n.val
  | .linkLost .v => 29
  | .linkLost .i => 30
  | .gridInstant => 31
  | .gapEnd => 32
  | _ => 33

theorem dueOne_sublist (due : Bool) (c : Instr) : (dueOne due c).Sublist [c] := by
  cases due <;> simp [dueOne]

theorem flatMap_dueOne_sublist (due : Fin 13 → Bool) (row : Fin 13 → Instr) (l : List (Fin 13)) :
    (l.flatMap fun n => dueOne (due n) (row n)).Sublist (l.map row) := by
  induction l with
  | nil => exact List.Sublist.refl _
  | cons n l ih => exact (dueOne_sublist (due n) (row n)).append ih

/-- The ranks of the due events rise. -/
theorem dueEvents_rank_sublist (s : State) : ((dueEvents s).map dueRank).Sublist (List.range 33) := by
  have one := dueOne_sublist
  have each := fun due row => flatMap_dueOne_sublist due row (List.finRange 13)
  exact List.Sublist.map dueRank
    (((((((((one _ _).append (one _ _)).append (one _ _)).append (each _ _)).append (each _ _)).append
      (one _ _)).append (one _ _)).append (one _ _)).append (one _ _))

theorem dueEvents_nodup (s : State) : (dueEvents s).Nodup :=
  ((dueEvents_rank_sublist s).nodup List.nodup_range).of_map

/-! ## When each row is due -/

theorem frameBytes_length (kind tag : Byte) (body : List Byte) : (frameBytes kind tag body).length = 8 + body.length := by
  simp [frameBytes, frameCovered, crcBytes, leBytes_length]
  omega

/-- The length by which FRAME_SENT is timed is the length of the frame's bytes. -/
theorem outFrame_bytes_length (x : OutFrame) : x.bytes.length = x.byteCount := by
  cases x with
  | answer a =>
    rw [OutFrame.bytes, frameBytes_length, Answer.body, List.length_append]
    show 8 + (1 + _) = 9 + _
    omega
  | notice n =>
    rw [OutFrame.bytes, frameBytes_length, notice_body_eq, List.length_cons, (snapshotLaidOut_bytes n.snapshot).1]
    rfl

theorem frameSentDue_iff (s : State) :
    frameSentDue s = true ↔
      ∃ x, s.cl.line = some x ∧ x.start + (100 * x.frame.bytes.length + 2) / 3 ≤ s.count := by
  unfold frameSentDue
  cases s.cl.line with
  | none => simp
  | some x =>
    simp only [Option.some.injEq, exists_eq_left', decide_eq_true_eq, outFrame_bytes_length]
    rfl

theorem internalMarkDue_iff (s : State) :
    internalMarkDue s = true ↔ ∃ p, s.tb.prevMark = some p ∧ s.count = p + s.tb.interval + 5001 := by
  unfold internalMarkDue
  cases s.tb.prevMark <;> simp

theorem ripe_iff (q : Qualifier) :
    q.ripe = true ↔ ∃ first samples, q = .candidate first samples ∧ samples.length = 3 := by
  cases q <;> simp [Qualifier.ripe]

theorem contactOf_succ (k : Fin 12) : contactOf k.succ = some k := by
  simp [contactOf, Fin.succ_ne_zero]

theorem qualificationDue_sync (s : State) : qualificationDue 0 s = s.ci.sync.qualifier.ripe := rfl

theorem qualificationDue_input (k : Fin 12) (s : State) :
    qualificationDue k.succ s = s.ci.inputs[k].qualifier.ripe := by
  simp [qualificationDue, contactOf_succ]

theorem windowEndDue_sync (s : State) : windowEndDue 0 s = false := rfl

theorem windowEndDue_input (k : Fin 12) (s : State) :
    windowEndDue k.succ s = true ↔
      ∃ last, s.ci.inputs[k].qualifier = .window last ∧ last ≤ s.count ∧ s.ci.nextSample = s.count + 100 := by
  simp only [windowEndDue, contactOf_succ, windowDue]
  cases s.ci.inputs[k].qualifier <;> simp

theorem linkLossDue_iff (g : Group) (s : State) :
    linkLossDue g s = true ↔
      s.count = s.ws.nextGrid ∧ ((s.al.get g).state = .settling ∨ (s.al.get g).state = .ready) ∧
        (s.al.get g).outstanding.isSome ∧ (s.al.get g).missed = 3 := by
  simp [linkLossDue, gridDue, AmpGroup.isSent, and_assoc]

theorem gapEndDue_iff (s : State) :
    gapEndDue s = true ↔ s.sq.state = .gap ∧ ∃ e, s.sq.gapEnd = some e ∧ e ≤ s.count := by
  unfold gapEndDue
  cases s.sq.gapEnd <;> simp

/-- Settles O2: the step by the number of due events; then each row by its own condition. -/
theorem stepOnAnEmptyQueueKeepsTheClock : Obligations.StepOnAnEmptyQueueKeepsTheClock := by
  refine ⟨fun s h => ⟨step_asserted h, step_nothingDue h, fun hr c => step_oneDue h hr, step_severalDue h⟩, fun s => ?_⟩
  intro due ripe
  refine ⟨?frameSent, ?internalMark, ?contactSample, ?sync, ?inputs, ?noWindow, ?windows, ?linkLost, ?gridInstant,
    ?gapEnd, ?rows, dueEvents_nodup s⟩
  case frameSent => simpa [due, mem_dueEvents] using frameSentDue_iff s
  case internalMark => simpa [due, mem_dueEvents] using internalMarkDue_iff s
  case contactSample =>
    intro contacts sync
    simp [due, mem_dueEvents, contactSampleDue, and_comm]
  case sync =>
    simpa [due, mem_dueEvents, qualificationDue_sync] using ripe_iff s.ci.sync.qualifier
  case inputs =>
    intro k
    simpa [due, mem_dueEvents, qualificationDue_input] using ripe_iff s.ci.inputs[k].qualifier
  case noWindow => simp [due, mem_dueEvents, windowEndDue_sync]
  case windows =>
    intro k
    simpa [due, mem_dueEvents] using windowEndDue_input k s
  case linkLost =>
    intro g
    simpa [due, mem_dueEvents] using linkLossDue_iff g s
  case gridInstant => simp [due, mem_dueEvents, gridDue]
  case gapEnd => simpa [due, mem_dueEvents] using gapEndDue_iff s
  case rows =>
    intro c hc
    obtain ⟨rfl, -⟩ | ⟨rfl, -⟩ | ⟨rfl, -⟩ | ⟨n, rfl, -⟩ | ⟨n, rfl, -⟩ | ⟨g, rfl, -⟩ | ⟨rfl, -⟩ | ⟨rfl, -⟩ :=
      mem_dueEvents.1 hc <;> simp

end Sys2Proof.Machine

/-! # STWRITE (R135, R136, R204) -/

namespace Sys2Proof.Machine

/-! ## The fields of a body

The model reads a field as a bit vector, the statements as a number; the two agree field by field. -/

theorem byteAt_toNat (body : List Byte) (k : Nat) : (byteAt body k).toNat = bodyByte body k := rfl

theorem bodyByte_lt (body : List Byte) (k : Nat) : bodyByte body k < 256 := (body.getD k 0).isLt

theorem leValue_take_succ (body : List Byte) (o k : Nat) :
    leValue ((body.drop o).take (k + 1)) = bodyByte body o + 256 * leValue ((body.drop (o + 1)).take k) := by
  rw [← List.drop_drop]
  have hb : bodyByte body o = ((body.drop o).getD 0 0).toNat := by simp [bodyByte]
  rw [hb]
  cases body.drop o <;> simp [leValue]

theorem leValue_take_two (body : List Byte) (o : Nat) : leValue ((body.drop o).take 2) = bodyHalf body o := by
  rw [leValue_take_succ, leValue_take_succ, List.take_zero, leValue, bodyHalf, Nat.mul_zero, Nat.add_zero]

theorem leValue_take_four (body : List Byte) (o : Nat) : leValue ((body.drop o).take 4) = bodyWord body o := by
  rw [leValue_take_succ, leValue_take_succ, leValue_take_two]
  simp only [bodyWord, bodyHalf, Nat.add_assoc, Nat.reduceAdd]
  omega

theorem halfAt_toNat (body : List Byte) (o : Nat) : (halfAt body o).toNat = bodyHalf body o := by
  have h0 := bodyByte_lt body o
  have h1 := bodyByte_lt body (o + 1)
  rw [halfAt, leValue_take_two, BitVec.toNat_ofNat, bodyHalf]
  omega

theorem wordAt_toNat (body : List Byte) (o : Nat) : (wordAt body o).toNat = bodyWord body o := by
  have h0 := bodyByte_lt body o
  have h1 := bodyByte_lt body (o + 1)
  have h2 := bodyByte_lt body (o + 2)
  have h3 := bodyByte_lt body (o + 2 + 1)
  rw [wordAt, leValue_take_four, BitVec.toNat_ofNat, bodyWord, bodyHalf, bodyHalf]
  omega

/-! ## Codes (R204) -/

theorem PhaseMode.ofCode_isSome (n : Nat) : (PhaseMode.ofCode n).isSome = true ↔ n ≤ 1 := by
  rcases n with _ | _ | n <;> simp [PhaseMode.ofCode]

theorem DcMode.ofCode_isSome (n : Nat) : (DcMode.ofCode n).isSome = true ↔ n ≤ 2 := by
  rcases n with _ | _ | _ | n <;> simp [DcMode.ofCode]

theorem directionOfCode_isSome (n : Nat) : (directionOfCode n).isSome = true ↔ n ≤ 1 := by
  rcases n with _ | _ | n <;> simp [directionOfCode, twoValued]

theorem BreakerEvent.ofCode_isSome (n : Nat) : (BreakerEvent.ofCode n).isSome = true ↔ n ≤ 8 := by
  rcases n with _ | _ | _ | _ | _ | _ | _ | _ | _ | n <;> simp [BreakerEvent.ofCode]

theorem ItemKind.ofCode_isSome (n : Nat) : (ItemKind.ofCode n).isSome = true ↔ n ≤ 1 := by
  rcases n with _ | _ | n <;> simp [ItemKind.ofCode]

theorem PhaseMode.ofCode_getD (n : Nat) : (PhaseMode.ofCode n).getD .set = if n = 1 then .keep else .set := by
  rcases n with _ | _ | n <;> simp [PhaseMode.ofCode]

theorem DcMode.ofCode_getD (n : Nat) :
    (DcMode.ofCode n).getD .continueDc = if n = 1 then .noDc else if n = 2 then .holdDc else .continueDc := by
  rcases n with _ | _ | _ | n <;> simp [DcMode.ofCode]

theorem directionOfCode_getD (n : Nat) : (directionOfCode n).getD .inactive = directionGiven n := by
  rcases n with _ | _ | n <;> simp [directionOfCode, twoValued, directionGiven]

theorem BreakerEvent.ofCode_code (v : BreakerEvent) : BreakerEvent.ofCode v.code = some v := by
  cases v with
  | poleOpen p => cases p <;> rfl
  | _ => rfl

theorem ItemKind.ofCode_getD (n : Nat) : (ItemKind.ofCode n).getD .expect = if n = 1 then .forbid else .expect := by
  rcases n with _ | _ | n <;> simp [ItemKind.ofCode]

/-! ## Checks 1 to 6 of R135 -/

theorem channelCodesOk_iff (body : List Byte) (ch : Fin 8) :
    channelCodesOk body ch = true ↔ bodyByte body (15 + 14 * ch.val) ≤ 1 ∧ bodyByte body (16 + 14 * ch.val) ≤ 2 := by
  have h15 : channelOffset ch + 12 = 15 + 14 * ch.val := by rw [channelOffset]; omega
  have h16 : channelOffset ch + 13 = 16 + 14 * ch.val := by rw [channelOffset]; omega
  simp only [channelCodesOk, Bool.and_eq_true, PhaseMode.ofCode_isSome, DcMode.ofCode_isSome, byteAt_toNat, h15, h16]

theorem exitOk_iff (body : List Byte) (n : Nat) :
    (exitCodesOk body n = true ∧ exitRefsOk body n = true) ↔
      let b (k : Nat) := bodyByte body (133 + 8 * n + k)
      b 0 ≤ 6 ∧ (b 0 = 1 → b 1 ≤ 12 ∧ b 2 ≤ 1) ∧ (b 0 = 4 → b 1 ≤ 8) ∧ (b 0 = 5 → b 1 ≤ 3) ∧ (b 0 = 6 → b 1 ≤ 15) ∧
        (b 5 ≤ 23 ∨ b 5 = 255) ∧ b 6 ≤ 2 ∧ (b 6 ≠ 0 → b 7 ≤ 15) := by
  simp only [exitCodesOk, exitRefsOk, Bool.and_eq_true, Bool.or_eq_true, decide_eq_true_eq, directionOfCode_isSome,
    BreakerEvent.ofCode_isSome]
  simp only [exitOffset, byteAt_toNat, Nat.add_zero]
  omega

theorem itemOk_iff (body : List Byte) (n : Nat) :
    (itemCodesOk body n = true ∧ itemRefsOk body n = true ∧ itemWindowOk body n = true) ↔
      let o := 133 + 8 * bodyByte body 1 + 12 * n
      let b (k : Nat) := bodyByte body (o + k)
      b 0 ≤ 2 ∧ (b 0 = 0 → b 1 ≤ 12 ∧ b 2 ≤ 1) ∧ b 3 ≤ 1 ∧ bodyWord body (o + 4) ≤ bodyWord body (o + 8) := by
  simp only [itemCodesOk, itemRefsOk, itemWindowOk, Bool.and_eq_true, Bool.or_eq_true, decide_eq_true_eq,
    directionOfCode_isSome, ItemKind.ofCode_isSome]
  simp only [itemOffset, exitCount, byteAt_toNat, wordAt_toNat, Nat.add_zero]
  omega

theorem entryChecksOk_iff (body : List Byte) :
    let b := bodyByte body
    let w := bodyWord body
    entryChecksOk body = true ↔
      b 0 ≤ 23 ∧ b 1 ≤ 6 ∧ b 2 ≤ 4 ∧ body.length = 133 + 8 * b 1 + 12 * b 2 ∧
      (∀ ch < 8, b (15 + 14 * ch) ≤ 1 ∧ b (16 + 14 * ch) ≤ 2) ∧ b 121 ≤ 1 ∧ (∀ c < 4, b (125 + 2 * c) ≤ 1) ∧
      (∀ n < b 1,
        let o := 133 + 8 * n
        b o ≤ 6 ∧ (b o = 1 → b (o + 1) ≤ 12 ∧ b (o + 2) ≤ 1) ∧ (b o = 4 → b (o + 1) ≤ 8) ∧
          (b o = 5 → b (o + 1) ≤ 3) ∧ (b o = 6 → b (o + 1) ≤ 15) ∧ (b (o + 5) ≤ 23 ∨ b (o + 5) = 255) ∧
          b (o + 6) ≤ 2 ∧ (b (o + 6) ≠ 0 → b (o + 7) ≤ 15)) ∧
      (∀ n < b 2,
        let o := 133 + 8 * b 1 + 12 * n
        b o ≤ 2 ∧ (b o = 0 → b (o + 1) ≤ 12 ∧ b (o + 2) ≤ 1) ∧ b (o + 3) ≤ 1 ∧ w (o + 4) ≤ w (o + 8)) := by
  intro b w
  have channels : (∀ ch : Fin 8, channelCodesOk body ch = true) ↔
      ∀ ch < 8, b (15 + 14 * ch) ≤ 1 ∧ b (16 + 14 * ch) ≤ 2 :=
    (forall_congr' (channelCodesOk_iff body)).trans Fin.forall_iff
  have loads : (∀ c : Fin 4, loadPresence body c ≤ 1) ↔ ∀ c < 4, b (125 + 2 * c) ≤ 1 :=
    Fin.forall_iff
  simp only [entryChecksOk, Bool.and_eq_true, decide_eq_true_eq, List.all_eq_true, List.mem_finRange, true_implies,
    List.mem_range, channels, loads]
  constructor
  · rintro ⟨⟨⟨⟨⟨⟨⟨⟨⟨⟨⟨index, exits⟩, items⟩, length⟩, codes⟩, inception⟩, presence⟩, exitCodes⟩, itemCodes⟩, exitRefs⟩,
      itemRefs⟩, windows⟩
    exact ⟨index, exits, items, length, codes, inception, presence,
      fun n hn => (exitOk_iff body n).1 ⟨exitCodes n hn, exitRefs n hn⟩,
      fun n hn => (itemOk_iff body n).1 ⟨itemCodes n hn, itemRefs n hn, windows n hn⟩⟩
  · rintro ⟨index, exits, items, length, codes, inception, presence, exitOk, itemOk⟩
    have ex (n : Nat) (hn : n < b 1) := (exitOk_iff body n).2 (exitOk n hn)
    have it (n : Nat) (hn : n < b 2) := (itemOk_iff body n).2 (itemOk n hn)
    exact ⟨⟨⟨⟨⟨⟨⟨⟨⟨⟨⟨index, exits⟩, items⟩, length⟩, codes⟩, inception⟩, presence⟩, fun n hn => (ex n hn).1⟩,
      fun n hn => (it n hn).1⟩, fun n hn => (ex n hn).2⟩, fun n hn => (it n hn).2.1⟩, fun n hn => (it n hn).2.2⟩

/-! ## Quantities brought into range (R136) -/

theorem clampNat_zero (hi x : Nat) : clampNat 0 hi x = min hi x := by
  unfold clampNat
  split
  · omega
  · split <;> omega

theorem clampFrequency_eq (x : Word) :
    clampFrequency x = if x.toNat = 0 then 0 else max 5000 (min 1000000 x.toNat) := by
  unfold clampFrequency clampNat
  repeat' split
  all_goals omega

theorem clampFrequency_ne (x : Word) :
    clampFrequency x ≠ x.toNat ↔ (0 < x.toNat ∧ x.toNat < 5000) ∨ 1000000 < x.toNat := by
  rw [clampFrequency_eq]
  split <;> omega

theorem channelClamped_iff (body : List Byte) (ch : Fin 8) :
    channelClamped body ch = true ↔
      let o := 3 + 14 * ch.val
      let h := bodyHalf body
      let w := bodyWord body
      32767 < h o ∨ 36000 ≤ h (o + 2) ∨ (0 < w (o + 4) ∧ w (o + 4) < 5000) ∨ 1000000 < w (o + 4) ∨
        32767 < h (o + 8) ∨ 60000 < h (o + 10) := by
  simp only [channelClamped, Bool.or_eq_true, decide_eq_true_eq]
  simp only [readChannel, clampFrequency_ne]
  simp only [channelOffset, clampAmplitude, reduceAngle, clampRampTime, clampNat_zero, halfAt_toNat, wordAt_toNat]
  omega

theorem readTrigger_after (body : List Byte) {o : Nat} (h : bodyByte body o = 0) :
    readTrigger body o = .after (min 4000000000 (bodyWord body (o + 1))) := by
  simp only [readTrigger, byteAt_toNat, h, clampTime, clampNat_zero, wordAt_toNat]

/-- Only an AFTER trigger holds a time (R133). -/
theorem readTrigger_eq_after {body : List Byte} {o t : Nat} (h : readTrigger body o = .after t) : bodyByte body o = 0 := by
  unfold readTrigger at h
  split at h <;> first | assumption | cases h

theorem exitClamped_iff (body : List Byte) (n : Nat) :
    exitClamped body n = true ↔ bodyByte body (133 + 8 * n) = 0 ∧ 4000000000 < bodyWord body (134 + 8 * n) := by
  have ho : 134 + 8 * n = exitOffset n + 1 := by rw [exitOffset]; omega
  rw [ho]
  unfold exitClamped
  split
  · next t ht =>
    have h0 := readTrigger_eq_after ht
    rw [readTrigger_after body h0, Trigger.after.injEq] at ht
    rw [decide_eq_true_eq, wordAt_toNat, ← ht]
    exact ⟨fun h => ⟨h0, by omega⟩, fun h => by omega⟩
  · next hn =>
    simp only [Bool.false_eq_true, false_iff]
    exact fun h => hn _ (readTrigger_after body h.1)

theorem itemClamped_iff (body : List Byte) (n : Nat) :
    itemClamped body n = true ↔
      let o := 133 + 8 * bodyByte body 1 + 12 * n
      4000000000 < bodyWord body (o + 4) ∨ 4000000000 < bodyWord body (o + 8) := by
  simp only [itemClamped, Bool.or_eq_true, decide_eq_true_eq]
  simp only [itemOffset, exitCount, byteAt_toNat, clampTime, clampNat_zero, wordAt_toNat]
  omega

theorem guardClamped_iff (body : List Byte) :
    clampGuard (wordAt body 117) ≠ (wordAt body 117).toNat ↔ 1000000 < bodyWord body 117 := by
  rw [clampGuard, clampNat_zero, wordAt_toNat]
  omega

theorem inceptionClamped_iff (body : List Byte) :
    reduceAngle (halfAt body 122) ≠ (halfAt body 122).toNat ↔ 36000 ≤ bodyHalf body 122 := by
  rw [reduceAngle, halfAt_toNat]
  omega

theorem entryClamped_iff (body : List Byte) :
    let b := bodyByte body
    let h := bodyHalf body
    let w := bodyWord body
    entryClamped body = true ↔
      (∃ ch < 8,
        let o := 3 + 14 * ch
        32767 < h o ∨ 36000 ≤ h (o + 2) ∨ (0 < w (o + 4) ∧ w (o + 4) < 5000) ∨ 1000000 < w (o + 4) ∨
          32767 < h (o + 8) ∨ 60000 < h (o + 10)) ∨
      1000000 < w 117 ∨ (b 121 = 1 ∧ 36000 ≤ h 122) ∨
      (∃ n < b 1, b (133 + 8 * n) = 0 ∧ 4000000000 < w (134 + 8 * n)) ∨
      (∃ n < b 2,
        let o := 133 + 8 * b 1 + 12 * n
        4000000000 < w (o + 4) ∨ 4000000000 < w (o + 8)) := by
  intro b h w
  simp only [entryClamped, Bool.or_eq_true, Bool.and_eq_true, decide_eq_true_eq, List.any_eq_true, List.mem_finRange,
    true_and, List.mem_range, channelClamped_iff, guardClamped_iff, inceptionClamped_iff, exitClamped_iff,
    itemClamped_iff, Fin.exists_iff, exists_prop, or_assoc]
  rfl

end Sys2Proof.Machine

/-! # STWRITE: the entry read and the outcomes (R135, R136, R204) -/

namespace Sys2Proof.Machine

/-! ## The entry read -/

theorem readChannel_eq (body : List Byte) (ch : Fin 8) : readChannel body ch = channelGiven body (3 + 14 * ch.val) := by
  simp only [readChannel, channelGiven, channelOffset, clampAmplitude, reduceAngle, clampRampTime, clampNat_zero,
    clampFrequency_eq, halfAt_toNat, wordAt_toNat, byteAt_toNat, PhaseMode.ofCode_getD, DcMode.ofCode_getD]

theorem readLoad_eq (body : List Byte) (c : Fin 4) :
    readLoad body c =
      if bodyByte body (125 + 2 * c.val) = 1 then some (bodyByte body (126 + 2 * c.val)) else none := rfl

section
variable {body : List Byte} {o : Nat}

theorem readTrigger_edge {i : Fin 13} (h : bodyByte body o = 1) (hi : bodyByte body (o + 1) = i.val) :
    readTrigger body o = .edge i (directionGiven (bodyByte body (o + 2))) := by
  simp only [readTrigger, byteAt_toNat, h, hi, Fin.ofNat_eq_cast, Fin.cast_val_eq_self, directionOfCode_getD]

theorem readTrigger_sync (h : bodyByte body o = 2) : readTrigger body o = .sync := by
  simp only [readTrigger, byteAt_toNat, h]

theorem readTrigger_go (h : bodyByte body o = 3) : readTrigger body o = .go := by
  simp only [readTrigger, byteAt_toNat, h]

theorem readTrigger_breaker {v : BreakerEvent} (h : bodyByte body o = 4) (hv : bodyByte body (o + 1) = v.code) :
    readTrigger body o = .breaker v := by
  simp only [readTrigger, byteAt_toNat, h, hv, BreakerEvent.ofCode_code, Option.getD_some]

theorem readTrigger_count {c : Fin 4} (h : bodyByte body o = 5) (hc : bodyByte body (o + 1) = c.val) :
    readTrigger body o = .count c := by
  simp only [readTrigger, byteAt_toNat, h, hc, Fin.ofNat_eq_cast, Fin.cast_val_eq_self]

theorem readTrigger_mark {m : Fin 16} (h : bodyByte body o = 6) (hm : bodyByte body (o + 1) = m.val) :
    readTrigger body o = .mark m := by
  simp only [readTrigger, byteAt_toNat, h, hm, Fin.ofNat_eq_cast, Fin.cast_val_eq_self]

theorem readTarget_state {m : Fin 24} (h : bodyByte body o = m.val) : readTarget (byteAt body o) = .state m := by
  have hm : m.val ≠ 255 := by omega
  simp only [readTarget, byteAt_toNat, h, hm, if_false, Fin.ofNat_eq_cast, Fin.cast_val_eq_self]

theorem readTarget_finish (h : bodyByte body o = 255) : readTarget (byteAt body o) = .finish := by
  simp only [readTarget, byteAt_toNat, h, if_true]

theorem readAction_none {p : Byte} (h : bodyByte body o = 0) : readAction (byteAt body o) p = none := by
  simp only [readAction, byteAt_toNat, h]

theorem readAction_set {k : Nat} {m : Fin 16} (h : bodyByte body o = 1) (hm : bodyByte body k = m.val) :
    readAction (byteAt body o) (byteAt body k) = some (.set m) := by
  simp only [readAction, byteAt_toNat, h, hm, Fin.ofNat_eq_cast, Fin.cast_val_eq_self]

theorem readAction_clear {k : Nat} {m : Fin 16} (h : bodyByte body o = 2) (hm : bodyByte body k = m.val) :
    readAction (byteAt body o) (byteAt body k) = some (.clear m) := by
  simp only [readAction, byteAt_toNat, h, hm, Fin.ofNat_eq_cast, Fin.cast_val_eq_self]

theorem readSubject_edge {i : Fin 13} (h : bodyByte body o = 0) (hi : bodyByte body (o + 1) = i.val) :
    readSubject body o = .edge i (directionGiven (bodyByte body (o + 2))) := by
  simp only [readSubject, byteAt_toNat, h, hi, Fin.ofNat_eq_cast, Fin.cast_val_eq_self, directionOfCode_getD]

theorem readSubject_anyOpen (h : bodyByte body o = 1) : readSubject body o = .anyOpen := by
  simp only [readSubject, byteAt_toNat, h]

theorem readSubject_allClosed (h : bodyByte body o = 2) : readSubject body o = .allClosed := by
  simp only [readSubject, byteAt_toNat, h]

end

theorem exitGiven_readExit (body : List Byte) (n : Nat) : exitGiven body (133 + 8 * n) (readExit body n) :=
  ⟨readTrigger_after body, fun _ => readTrigger_edge, readTrigger_sync, readTrigger_go, fun _ => readTrigger_breaker,
    fun _ => readTrigger_count, fun _ => readTrigger_mark, fun _ => readTarget_state, readTarget_finish, readAction_none,
    fun _ hm => ⟨fun h => readAction_set h hm, fun h => readAction_clear h hm⟩⟩

theorem itemGiven_readItem (body : List Byte) (n : Nat) :
    itemGiven body (133 + 8 * bodyByte body 1 + 12 * n) (readItem body n) := by
  refine ⟨fun _ => readSubject_edge, readSubject_anyOpen, readSubject_allClosed, ItemKind.ofCode_getD _, ?lo, ?hi⟩
  case lo => exact (clampNat_zero _ _).trans (congrArg (min 4000000000) (wordAt_toNat body _))
  case hi => exact (clampNat_zero _ _).trans (congrArg (min 4000000000) (wordAt_toNat body _))

/-- An element of a list read place by place is the one read at its place. -/
theorem getElem?_map_range {α : Type} {f : Nat → α} {m n : Nat} {y : α}
    (h : ((List.range m).map f)[n]? = some y) : y = f n := by
  obtain ⟨hn, rfl⟩ := List.getElem?_eq_some_iff.1 h
  simp

theorem readEntry_given (body : List Byte) :
    let b := bodyByte body
    let h := bodyHalf body
    let w := bodyWord body
    let x := readEntry body
    (∀ ch : Fin 8, x.channels[ch] = channelGiven body (3 + 14 * ch.val)) ∧
    x.decay = h 115 ∧ x.guard = min 1000000 (w 117) ∧
    x.inception = (if b 121 = 1 then some (h 122 % 36000) else none) ∧ x.pattern.toNat = b 124 ∧
    (∀ c : Fin 4, x.loads[c] = if b (125 + 2 * c.val) = 1 then some (b (126 + 2 * c.val)) else none) ∧
    x.exits.length = b 1 ∧ x.items.length = b 2 ∧
    (∀ n y, x.exits[n]? = some y → exitGiven body (133 + 8 * n) y) ∧
    (∀ n y, x.items[n]? = some y → itemGiven body (133 + 8 * b 1 + 12 * n) y) := by
  intro b h w x
  refine ⟨fun ch => ?channels, halfAt_toNat body 115, ?guard, ?inception, rfl, fun c => ?loads, ?exitCount, ?itemCount,
    fun n y hy => ?exits, fun n y hy => ?items⟩
  case channels => rw [← readChannel_eq]; simp [x, readEntry]
  case guard => exact (clampNat_zero _ _).trans (congrArg (min 1000000) (wordAt_toNat body 117))
  case inception =>
    simp only [x, readEntry, reduceAngle, halfAt_toNat, byteAt_toNat]
    rfl
  case loads =>
    have hl : x.loads[c] = readLoad body c := by simp [x, readEntry]
    exact hl.trans (readLoad_eq body c)
  case exitCount => simp [x, readEntry, exitCount, byteAt_toNat, b]
  case itemCount => simp [x, readEntry, itemCount, byteAt_toNat, b]
  case exits => rw [getElem?_map_range hy]; exact exitGiven_readExit body n
  case items => rw [getElem?_map_range hy]; exact itemGiven_readItem body n

/-! ## The outcomes -/

theorem parseRequest_stwrite {body : List Byte} (h : 133 ≤ body.length ∧ body.length ≤ 229) :
    parseRequest 0x20 body = .stwrite body := by
  have hl : requestLengths (0x20 : Byte).toNat = some (133, 229) := rfl
  simp only [parseRequest, hl, h, and_self, if_true]
  rfl

theorem exec_stwrite {tag : Byte} {body : List Byte} {s : State} (hr : s.resetLine = false)
    (hb : 133 ≤ body.length ∧ body.length ≤ 229) :
    exec (.stwrite tag body) s = act (submit ⟨tag, .stwrite body⟩) (putReceiver .hunt s) := by
  rw [← parseRequest_stwrite hb]
  exact exec_frameReceived hr (by omega)

/-- A body whose checks fail is refused, whether its index names an entry or not. -/
theorem requestStwrite_range {body : List Byte} (h : entryChecksOk body = false) (s : State) :
    requestStwrite body s = refuse .range s := by
  unfold requestStwrite
  split
  · rfl
  · rw [if_pos h]

/-- A body that passes its checks names the entry of its first byte. -/
theorem requestStwrite_checked {body : List Byte} (h : entryChecksOk body = true) (s : State) :
    requestStwrite body s =
      if entryInUse (Fin.ofNat 24 (byteAt body 0).toNat) s.sq then refuse .active s
      else carried (clampStatus (entryClamped body)) [byteAt body 0]
        (putEntry (Fin.ofNat 24 (byteAt body 0).toNat) (some (readEntry body)) s) := by
  have hi : (byteAt body 0).toNat ≤ 23 := ((entryChecksOk_iff body).1 h).1
  have hb : byteOf (Fin.ofNat 24 (byteAt body 0).toNat).val = [byteAt body 0] := by
    have hv : (Fin.ofNat 24 (byteAt body 0).toNat).val = (byteAt body 0).toNat := Nat.mod_eq_of_lt (by omega)
    rw [byteOf, hv, BitVec.ofNat_toNat, BitVec.setWidth_eq]
  simp only [requestStwrite, entryOfCode, hi, if_true, h, Bool.true_eq_false, if_false, hb]

/-- Settles O16: the outcomes in the order of the checks; the checks, the limits and the entry by their own lemmas. -/
theorem stwriteStoresTheEntry : Obligations.StwriteStoresTheEntry := by
  refine ⟨?outcomes, entryChecksOk_iff, entryClamped_iff, readEntry_given⟩
  rintro tag body s0 ⟨hr, hs⟩ s h n fits
  have l : listening s := ⟨hr, hs⟩
  refine ⟨?length, ?range, ?active, ?stored⟩
  case length =>
    intro hb hf
    have hq : parseRequest 0x20 body = .wrongLength 0x20 := parseRequest_wrongLength rfl hf
    show exec (.frameReceived 0x20 tag body) s0 = _
    rw [exec_frameReceived hr hb, hq]
    exact act_refuse l fun _ => rfl
  case range =>
    intro hf hc
    rw [exec_stwrite hr hf]
    exact act_refuse l fun _ => requestStwrite_range hc _
  case active =>
    intro hf hc hu
    rw [exec_stwrite hr hf]
    exact act_refuse l fun x => (requestStwrite_checked hc _).trans (if_pos hu)
  case stored =>
    intro hf hc hu
    rw [exec_stwrite hr hf]
    refine act_answer l (t := putEntry n (some (readEntry body)) s) (fun x => ?_) rfl
    exact (requestStwrite_checked hc _).trans (if_neg (Bool.eq_false_iff.1 hu))

end Sys2Proof.Machine

/-! # The run and the store, step by step (O58) -/

namespace Sys2Proof.Machine

theorem StepEffect.coherent {s t : State} (e : StepEffect s t) (h : runCoherent s) : runCoherent t := by
  cases e with
  | sound k => exact k.coherent h
  | request q => exact submit_coherent q h
  | frame kind tag body => exact receiveFrame_coherent kind tag body h
  | byte start b stop => exact receiveLineByte_coherent start b stop h
  | gap => exact interByteGap_coherent h
  | sent => exact frameSent_coherent h

/-- The run is read off the sequencer, the store, the time base and the breaker: the count, the RESET line, the queue and
the free choices are no part of it. -/
theorem exec_coherent {c : Instr} {s t : State} (h : runCoherent s) (e : exec c s = .next t) : runCoherent t := by
  obtain (rfl | rfl | rfl) | ⟨f, hf, k⟩ := exec_cases c s
  · cases e; exact hardwareReset_coherent s.resetLine s
  · cases e; exact hardwareReset_coherent true s
  · cases e; exact coherent_of_parts rfl rfl rfl rfl h
  · rw [hf] at e
    cases hr : s.resetLine with
    | true => rw [act_asserted hr] at e; cases e; exact h
    | false => rw [act_released hr] at e; cases e; exact settle_coherent (k.coherent h)

theorem advanceCount_coherent {s : State} (h : runCoherent s) : runCoherent (advanceCount s) := by
  unfold advanceCount
  split
  · exact h
  · exact coherent_of_parts rfl rfl rfl rfl h

/-- Settles O58: a command and a due event by the effects that `act` settles; the passing of a count touches no part of
the run. -/
theorem everyStepKeepsTheRunCoherent : Obligations.EveryStepKeepsTheRunCoherent := by
  intro s t h e
  obtain ⟨c, rest, -, hs⟩ | ⟨-, c, -, n, hs⟩ | hs := step_cases s
  · rw [hs] at e
    exact exec_coherent (s := { s with pending := rest }) (coherent_of_parts rfl rfl rfl rfl h) e
  · rw [hs] at e
    exact exec_coherent (s := { s with free := n }) (coherent_of_parts rfl rfl rfl rfl h) e
  · rw [hs] at e
    cases e
    exact advanceCount_coherent h

end Sys2Proof.Machine

/-! # TCAL, TCALX and TSEC (R20, R23, R29) -/

namespace Sys2Proof.Machine

theorem startCalibration_fresh {tb : TimeBase} (k : Nat) (h : tb.state ≠ .calibrating) :
    startCalibration k tb = { tb with state := .calibrating, cal := some ⟨k, tb.state, .waiting, 0⟩ } := by
  unfold startCalibration
  cases hs : tb.state with
  | calibrating => exact absurd hs h
  | free | locked | holdover => rfl

theorem startCalibration_restart {tb : TimeBase} {x : Calibration} (k : Nat) (h : tb.state = .calibrating)
    (hx : tb.cal = some x) :
    startCalibration k tb = { tb with state := .calibrating, cal := some ⟨k, x.prior, .waiting, 0⟩ } := by
  simp only [startCalibration, h, hx]

/-- R23: a count of seconds is limited exactly where it lies outside 1..64. -/
theorem tcalStatus_eq (k : Byte) :
    clampStatus (clampNat 1 64 k.toNat ≠ k.toNat) = if 1 ≤ k.toNat ∧ k.toNat ≤ 64 then .ok else .clamped := by
  have hc : clampNat 1 64 k.toNat = k.toNat ↔ 1 ≤ k.toNat ∧ k.toNat ≤ 64 := by
    unfold clampNat
    split
    · omega
    · split <;> omega
  by_cases h : 1 ≤ k.toNat ∧ k.toNat ≤ 64
  · simp [clampStatus, h, hc.2 h]
  · simp [clampStatus, h, hc]

theorem exec_tcal {tag k : Byte} {s : State} (l : listening s) :
    exec (.tcal tag k) s =
      .next (answering ⟨tag, .tcal k⟩ (if 1 ≤ k.toNat ∧ k.toNat ≤ 64 then .ok else .clamped) []
        (putTb (startCalibration (clampNat 1 64 k.toNat) s.tb) s)) := by
  rw [exec_requestOf rfl, ← tcalStatus_eq]
  exact act_answer l (fun _ => rfl) rfl

/-- Settles O24: the calibration record by the state found. -/
theorem tcalStartsACalibration : Obligations.TcalStartsACalibration := by
  intro tag k s l h n status
  refine ⟨fun hs => ?fresh, fun x hs hx => ?restart⟩
  case fresh => rw [exec_tcal l, startCalibration_fresh _ hs]
  case restart => rw [exec_tcal l, startCalibration_restart _ hs hx]

theorem requestTcalx_abort {s : State} {x : Calibration} (h : s.tb.state = .calibrating) (hx : s.tb.cal = some x) :
    requestTcalx s = carried .ok [] (putTb { s.tb with cal := none, state := x.prior } s) := by
  simp only [requestTcalx, h, hx]

theorem requestTcalx_order {s : State} (h : s.tb.state ≠ .calibrating) : requestTcalx s = refuse .order s := by
  unfold requestTcalx
  split
  · next hs _ => exact absurd hs h
  · rfl

/-- Settles O25: TCALX in and outside a calibration, then TSEC. -/
theorem tcalxAbortsAndTsecArms : Obligations.TcalxAbortsAndTsecArms := by
  intro tag n s l
  refine ⟨fun x hs hx => ?abort, fun hs => ?order, ?arm⟩
  case abort =>
    rw [exec_requestOf rfl]
    exact act_answer l (fun y => requestTcalx_abort (s := putCl y s) hs hx) rfl
  case order =>
    rw [exec_requestOf rfl]
    exact act_refuse l fun y => requestTcalx_order (s := putCl y s) hs
  case arm =>
    rw [exec_requestOf rfl]
    exact act_answer l (fun _ => rfl) rfl

end Sys2Proof.Machine

/-! # Run time (R31) -/

namespace Sys2Proof.Machine

theorem runTime_mono (t0 : Nat) (c : Int) {x y : Nat} (h : x ≤ y) : runTime t0 c x ≤ runTime t0 c y :=
  Nat.div_le_div_right (Nat.mul_le_mul_right _ (Nat.sub_le_sub_right h t0))

theorem runTime_before (t0 : Nat) (c : Int) {x : Nat} (h : x ≤ t0) : runTime t0 c x = 0 := by
  simp [runTime, Nat.sub_eq_zero_of_le h]

/-- Ten counts of a nominal oscillator are one microsecond. -/
theorem runTime_nominal (t0 n : Nat) : runTime t0 0 (t0 + 500 * n) = 50 * n := by
  have hb : rateBase 0 = 1000000000 := by decide
  rw [runTime, hb]
  omega

theorem rateBase_cast {c : Int} (h : -100000 ≤ c) : (rateBase c : Int) = 1000000000 + c :=
  Int.toNat_of_nonneg (by omega)

/-- Run time is the floor of R31's quotient, as the two inequalities that say so. -/
theorem runTime_floor {t0 : Nat} {c : Int} {x : Nat} (hx : t0 ≤ x) (hc : -100000 ≤ c) :
    (runTime t0 c x : Int) * (1000000000 + c) ≤ ((x : Int) - t0) * 100000000 ∧
      ((x : Int) - t0) * 100000000 < ((runTime t0 c x : Int) + 1) * (1000000000 + c) := by
  have hb := rateBase_cast hc
  have hpos : 0 < rateBase c := by omega
  have below : runTime t0 c x * rateBase c ≤ (x - t0) * 100000000 := Nat.div_mul_le_self _ _
  have above : (x - t0) * 100000000 < (runTime t0 c x + 1) * rateBase c := by
    rw [Nat.mul_comm (runTime t0 c x + 1)]
    exact Nat.lt_mul_div_succ _ hpos
  rw [← hb, ← Nat.cast_sub hx]
  exact_mod_cast And.intro below above

/-- Settles O32. -/
theorem runTimeIsExact : Obligations.RunTimeIsExact :=
  ⟨fun t0 c _ _ => runTime_mono t0 c, fun t0 c _ => runTime_before t0 c, runTime_nominal,
    fun _ _ _ hx hc _ => runTime_floor hx hc⟩

end Sys2Proof.Machine

/-! # Marks handed to the sequencer (R19, R149, R150)

`markHanded` says what becomes of a mark; `handMark` is the only state that it allows (`markHanded_iff`). A statement about
a mark whose sequel is any `u` so handed follows from an equation of `endMark`. -/

namespace Sys2Proof.Machine

theorem handMark_unawaited {mark : Nat} {internal : Bool} {s : State} (h : ¬ awaitsSecond s) :
    handMark mark internal s = s := by
  unfold handMark
  split
  · next r hs hr =>
    split
    · next ht => exact absurd ⟨hs, r, hr, ht⟩ h
    · rfl
  · rfl

section
variable {mark : Nat} {internal : Bool} {s : State} {r : RunSettings}

theorem handMark_awaited (hs : s.sq.state = .armed) (hr : s.sq.settings = some r) (ht : r.trigger = .atSecond) :
    handMark mark internal s =
      if s.tb.second = r.second then tryStart mark internal s else if r.second < s.tb.second then endWait s else s := by
  simp only [handMark, hs, hr, ht, if_true]

end

theorem tryStart_room {t0 : Nat} {internal : Bool} {s : State} (h : s.rs.records.length ≤ 638) :
    tryStart t0 internal s = startRun t0 internal s :=
  if_pos (show 2 ≤ 640 - s.rs.records.length by omega)

theorem tryStart_noRoom {t0 : Nat} {internal : Bool} {s : State} (h : 638 < s.rs.records.length) :
    tryStart t0 internal s = waitEnded s :=
  if_neg (show ¬ 2 ≤ 640 - s.rs.records.length by omega)

theorem markHanded_handMark (mark : Nat) (internal : Bool) (s : State) :
    markHanded mark internal s (handMark mark internal s) := by
  refine ⟨handMark_unawaited, fun r hs hr ht => ?_⟩
  rw [handMark_awaited hs hr ht]
  refine ⟨fun hlt => ?below, fun heq hl => ?room, fun heq hl => ?noRoom, fun hgt => ?beyond⟩
  case below => rw [if_neg (by omega), if_neg (by omega)]
  case room => rw [if_pos heq, tryStart_room hl]
  case noRoom => rw [if_pos heq, tryStart_noRoom hl]
  case beyond => rw [if_neg (by omega), if_pos hgt]; rfl

/-- A handed mark has one sequel. -/
theorem markHanded_unique {mark : Nat} {internal : Bool} {s u v : State} (hu : markHanded mark internal s u)
    (hv : markHanded mark internal s v) : u = v := by
  by_cases ha : awaitsSecond s
  · obtain ⟨hs, r, hr, ht⟩ := ha
    obtain ⟨ubelow, uroom, unoRoom, ubeyond⟩ := hu.2 r hs hr ht
    obtain ⟨vbelow, vroom, vnoRoom, vbeyond⟩ := hv.2 r hs hr ht
    obtain hlt | heq | hgt := lt_trichotomy s.tb.second r.second
    · rw [ubelow hlt, vbelow hlt]
    · obtain hl | hl := Nat.lt_or_ge 638 s.rs.records.length
      · rw [unoRoom heq hl, vnoRoom heq hl]
      · rw [uroom heq hl, vroom heq hl]
    · rw [ubeyond hgt, vbeyond hgt]
  · rw [hu.1 ha, hv.1 ha]

/-- The end of a mark, whatever the sequencer makes of it: E by the correction then in force. -/
theorem endMark_handed {mark : Nat} {internal : Bool} {s u : State} (h : markHanded mark internal s u) :
    endMark mark internal s = withInterval u := by
  rw [markHanded_unique h (markHanded_handMark mark internal s)]
  rfl

/-- The outcome of a step that ends with a mark handed to the sequencer. -/
theorem next_endMark {mark : Nat} {internal : Bool} {s u : State} (h : markHanded mark internal s u) :
    (.next (settle (endMark mark internal s)) : Host.Outcome State Fault Refusal) = .next (settle (withInterval u)) := by
  rw [endMark_handed h]

end Sys2Proof.Machine

/-! # The effects of a mark, case by case (R16 to R22, R24, R25, R27)

An accepted edge, with or without an armed second, is `acceptPulse` on the state that `epochTaken` gives, then the end of
the mark. The equations below give each operation of the time base in each of its cases. -/

namespace Sys2Proof.Machine

/-! ## Records of the time base -/

@[simp] theorem timeEvent_tb (count : Nat) (e : TimeEvent) (c : Option Int) (n : Option Nat) (s : State) :
    (timeEvent count e c n s).tb = s.tb := offerAt_tb _ _ _

@[simp] theorem timeEvent_sq (count : Nat) (e : TimeEvent) (c : Option Int) (n : Option Nat) (s : State) :
    (timeEvent count e c n s).sq = s.sq := offerAt_sq _ _ _

@[simp] theorem timeEvent_count (count : Nat) (e : TimeEvent) (c : Option Int) (n : Option Nat) (s : State) :
    (timeEvent count e c n s).count = s.count := offerAt_count _ _ _

/-! ## Which edges are taken -/

theorem accepts_iff (tb : TimeBase) (count : Nat) :
    tb.accepts count = true ↔
      tb.prevMark = none ∨
        ∃ p, tb.prevMark = some p ∧ p + tb.interval ≤ count + 5000 ∧ count ≤ p + tb.interval + 5000 := by
  unfold TimeBase.accepts TimeBase.inWindow
  cases tb.prevMark <;> simp

/-- R20: the state in which the other effects of an edge begin. Under an armed second the mark is placed, the armed
second is the second count and the epoch is set, and EPOCH_SET stands. -/
def epochTaken (s : State) : State :=
  match s.tb.armedSecond with
  | some n =>
    timeEvent s.count .epochSet none (some n)
      (putTb { s.tb with prevMark := some s.count, second := n, epoch := true, armedSecond := none } s)
  | none => s

theorem epochTaken_unarmed {s : State} (h : s.tb.armedSecond = none) : epochTaken s = s := by
  simp only [epochTaken, h]

theorem epochTaken_armed {s : State} {n : Nat} (h : s.tb.armedSecond = some n) :
    epochTaken s = timeEvent s.count .epochSet none (some n)
      (putTb { s.tb with prevMark := some s.count, second := n, epoch := true, armedSecond := none } s) := by
  simp only [epochTaken, h]

theorem epochTaken_tb_armed {s : State} {n : Nat} (h : s.tb.armedSecond = some n) :
    (epochTaken s).tb = { s.tb with prevMark := some s.count, second := n, epoch := true, armedSecond := none } := by
  rw [epochTaken_armed h, timeEvent_tb, putTb_tb]

@[simp] theorem epochTaken_sq (s : State) : (epochTaken s).sq = s.sq := by
  unfold epochTaken
  split
  · rw [timeEvent_sq, putTb_sq]
  · rfl

@[simp] theorem epochTaken_count (s : State) : (epochTaken s).count = s.count := by
  unfold epochTaken
  split
  · rw [timeEvent_count, putTb_count]
  · rfl

@[simp] theorem epochTaken_state (s : State) : (epochTaken s).tb.state = s.tb.state := by
  unfold epochTaken
  split
  · rw [timeEvent_tb, putTb_tb]
  · rfl

@[simp] theorem epochTaken_cal (s : State) : (epochTaken s).tb.cal = s.tb.cal := by
  unfold epochTaken
  split
  · rw [timeEvent_tb, putTb_tb]
  · rfl

@[simp] theorem epochTaken_pulseRun (s : State) : (epochTaken s).tb.pulseRun = s.tb.pulseRun := by
  unfold epochTaken
  split
  · rw [timeEvent_tb, putTb_tb]
  · rfl

/-- R17, R20: the second count of a PPS edge that is taken. -/
def edgeSecond (tb : TimeBase) : Nat := tb.armedSecond.getD (nextSecond tb.second)

theorem ppsEdge_accepted {s : State} (h : s.tb.accepts s.count = true) :
    ppsEdge s = endMark s.count false (acceptPulse s.count (edgeSecond s.tb) (epochTaken s)) := by
  unfold ppsEdge edgeSecond
  split
  · next n hn =>
    rw [epochTaken_armed hn, hn]
    simp only [armedEdge, h, if_true, timeEvent_count, putTb_count]
    rfl
  · next hn =>
    rw [epochTaken_unarmed hn, hn, if_pos h]
    rfl

theorem ppsEdge_realigned {s : State} {n : Nat} (hn : s.tb.armedSecond = some n) (h : s.tb.accepts s.count = false) :
    ppsEdge s = endMark s.count false (realignMark s.count n (epochTaken s)) := by
  rw [epochTaken_armed hn]
  simp only [ppsEdge, hn, armedEdge, h, timeEvent_count, putTb_count]
  rfl

theorem ppsEdge_rejected {s : State} (hn : s.tb.armedSecond = none) (h : s.tb.accepts s.count = false) :
    ppsEdge s = rejectEdge s := by
  simp only [ppsEdge, hn, h]
  rfl

/-! ## An accepted pulse (R22, R24) -/

section
variable {count second : Nat} {s : State}

theorem acceptPulse_plain
    (h : s.tb.state = .free ∨ s.tb.state = .locked ∨ (s.tb.state = .holdover ∧ s.tb.pulseRun = 0)) :
    acceptPulse count second s = putTb (s.tb.pulse count second) s := by
  obtain h | h | ⟨h, hp⟩ := h
  · simp [acceptPulse, TimeBase.pulse, h]
  · simp [acceptPulse, TimeBase.pulse, h]
  · simp [acceptPulse, TimeBase.pulse, h, hp]

theorem acceptPulse_relock (h : s.tb.state = .holdover) (hp : 1 ≤ s.tb.pulseRun) :
    acceptPulse count second s =
      timeEvent count .relocked none (some second) (putTb { s.tb.pulse count second with state := .locked } s) := by
  have hr : min 2 (s.tb.pulseRun + 1) = 2 := by omega
  simp only [acceptPulse, TimeBase.pulse, putTb_tb, h, hr, if_true]
  rfl

theorem acceptPulse_calibrating {x : Calibration} (h : s.tb.state = .calibrating) (hx : s.tb.cal = some x) :
    acceptPulse count second s = calibrationPulse count x (putTb (s.tb.pulse count second) s) := by
  simp only [acceptPulse, TimeBase.pulse, putTb_tb, h, hx]

theorem realignMark_plain (h : s.tb.state ≠ .calibrating) :
    realignMark count second s = putTb (s.tb.realign count second) s := by
  unfold realignMark
  dsimp only
  split
  · next hs _ => exact absurd hs h
  · rfl

theorem realignMark_calibrating {x : Calibration} (h : s.tb.state = .calibrating) (hx : s.tb.cal = some x) :
    realignMark count second s = calibrationRealign count x (putTb (s.tb.realign count second) s) := by
  simp only [realignMark, TimeBase.realign, putTb_tb, h, hx]

theorem rejectEdge_plain (h : s.tb.state ≠ .calibrating) : rejectEdge s = putTb { s.tb with pulseRun := 0 } s := by
  unfold rejectEdge
  dsimp only
  split
  · next hs _ => exact absurd hs h
  · rfl

theorem rejectEdge_calibrating {x : Calibration} (h : s.tb.state = .calibrating) (hx : s.tb.cal = some x) :
    rejectEdge s = failCalibration s.count x x.prior (putTb { s.tb with pulseRun := 0 } s) := by
  simp only [rejectEdge, putTb_tb, h, hx]
  rfl

/-! ## A calibration's pulse (R24, R25) -/

variable {x : Calibration} {opening : Nat}

theorem calibrationPulse_waiting (h : x.phase = .waiting) :
    calibrationPulse count x s = putTb { s.tb with cal := some { x with phase := .counting count } } s := by
  simp only [calibrationPulse, h]

theorem calibrationPulse_counted (h : x.phase = .counting opening) (hk : x.pulses + 1 ≠ x.k) :
    calibrationPulse count x s = putTb { s.tb with cal := some { x with pulses := x.pulses + 1 } } s := by
  simp only [calibrationPulse, h, hk, if_false]

theorem calibrationPulse_closing (h : x.phase = .counting opening) (hk : x.pulses + 1 = x.k) :
    calibrationPulse count x s = finishCalibration count x opening s := by
  simp only [calibrationPulse, h, hk, if_true]

theorem calibrationRealign_waiting (h : x.phase = .waiting) :
    calibrationRealign count x s = putTb { s.tb with cal := some { x with phase := .counting count } } s := by
  simp only [calibrationRealign, h, calibrationPulse_waiting h]

theorem calibrationRealign_counting (h : x.phase = .counting opening) :
    calibrationRealign count x s = failCalibration count x x.prior s := by
  simp only [calibrationRealign, h]

/-! ## An internal mark (R18, R21) -/

theorem placeInternal_plain
    (h : s.tb.state = .free ∨ s.tb.state = .holdover ∨ (s.tb.state = .locked ∧ s.tb.internalRun = 0)) :
    placeInternal count s = putTb (s.tb.internal count) s := by
  obtain h | h | ⟨h, hp⟩ := h
  · simp [placeInternal, TimeBase.internal, h]
  · simp [placeInternal, TimeBase.internal, h]
  · simp [placeInternal, TimeBase.internal, h, hp]

theorem placeInternal_holdover (h : s.tb.state = .locked) (hp : 1 ≤ s.tb.internalRun) :
    placeInternal count s =
      timeEvent count .holdover none (some (nextSecond s.tb.second))
        (putTb { s.tb.internal count with state := .holdover } s) := by
  have hr : min 2 (s.tb.internalRun + 1) = 2 := by omega
  simp only [placeInternal, TimeBase.internal, putTb_tb, h, hr, if_true]
  rfl

theorem placeInternal_calibrating (h : s.tb.state = .calibrating) (hx : s.tb.cal = some x) :
    placeInternal count s = failCalibration count x (afterInternal x.prior) (putTb (s.tb.internal count) s) := by
  simp only [placeInternal, TimeBase.internal, putTb_tb, h, hx]

theorem internalMark_placed {p : Nat} (h : s.tb.prevMark = some p) :
    internalMark s = endMark (p + s.tb.interval) true (placeInternal (p + s.tb.interval) s) := by
  simp only [internalMark, h]

end

theorem exec_ppsEdge {s : State} (h : s.resetLine = false) : exec .ppsEdge s = .next (settle (ppsEdge s)) :=
  act_released h

/-- The internal mark at the closing of the window (R18). -/
theorem exec_internalMark {s : State} {p : Nat} (h : s.resetLine = false) (hp : s.tb.prevMark = some p)
    (hc : s.count = p + s.tb.interval + 5001) :
    exec .internalMark s =
      .next (settle (endMark (p + s.tb.interval) true (placeInternal (p + s.tb.interval) s))) := by
  have hd : internalMarkDue s = true := (internalMarkDue_iff s).2 ⟨p, hp, hc⟩
  rw [← internalMark_placed hp]
  exact (act_released h).trans (by rw [whenDue, if_pos hd])

end Sys2Proof.Machine

/-! # PPS edges and internal marks (R16 to R22, R24) -/

namespace Sys2Proof.Machine

/-- Settles O26: the edge accepted, in each state that closes no calibration, or rejected. -/
theorem ppsEdgeIsAcceptedOrRejected : Obligations.PpsEdgeIsAcceptedOrRejected := by
  refine ⟨fun mark internal s => ⟨_, markHanded_handMark mark internal s⟩, ?_⟩
  intro s hr hn inWindow second marked
  have accepted (hw : inWindow) :
      exec .ppsEdge s = .next (settle (endMark s.count false (acceptPulse s.count second s))) := by
    rw [exec_ppsEdge hr, ppsEdge_accepted ((accepts_iff s.tb s.count).2 hw), epochTaken_unarmed hn, edgeSecond, hn]
    rfl
  refine ⟨fun u hw => ⟨?plain, ?relock, fun x hs hx => ⟨?opened, ?counted⟩⟩, ?rejected⟩
  case plain =>
    intro hs hu
    rw [accepted hw, acceptPulse_plain hs]
    exact next_endMark hu
  case relock =>
    intro hs hp _ hu
    rw [accepted hw, acceptPulse_relock hs hp]
    exact next_endMark hu
  case opened =>
    intro hp hu
    rw [accepted hw, acceptPulse_calibrating hs hx, calibrationPulse_waiting hp]
    exact next_endMark hu
  case counted =>
    intro opening hp hk hu
    rw [accepted hw, acceptPulse_calibrating hs hx, calibrationPulse_counted hp hk]
    exact next_endMark hu
  case rejected =>
    intro hw hs
    have ha : s.tb.accepts s.count = false := Bool.eq_false_iff.2 fun h => hw ((accepts_iff s.tb s.count).1 h)
    rw [exec_ppsEdge hr, ppsEdge_rejected hn ha, rejectEdge_plain hs]

/-- Settles O29: the mark is placed by its own lemma in each state, then handed on. -/
theorem internalMarkIsPlacedAtTheClosing : Obligations.InternalMarkIsPlacedAtTheClosing := by
  intro p s u hr hp hc mark second marked
  refine ⟨fun hs hu => ?plain, fun hs hi hu => ?holdover⟩
  case plain =>
    rw [exec_internalMark hr hp hc, placeInternal_plain hs]
    exact next_endMark hu
  case holdover =>
    rw [exec_internalMark hr hp hc, placeInternal_holdover hs hi]
    exact next_endMark hu

end Sys2Proof.Machine

/-! # What a mark leaves of the time base

The sequencer's answer to a mark touches of the time base only the corrections and the run latch
(`handMark_uncorrected`); a calibration's pulse or failure leaves the mark itself (`TimeBase.marks`). -/

namespace Sys2Proof.Machine

/-- The time base without E, the corrections and the run latch. -/
def TimeBase.uncorrected (tb : TimeBase) : TimeBase :=
  { tb with interval := 0, c := 0, pendingC := none, latch := none }

/-- The marks of the time base: further without the calibration and the state. -/
def TimeBase.marks (tb : TimeBase) : TimeBase := { tb.uncorrected with state := .free, cal := none }

theorem TimeBase.marks_of_uncorrected {x y : TimeBase} (h : x.uncorrected = y.uncorrected) : x.marks = y.marks :=
  congrArg (fun tb : TimeBase => { tb with state := .free, cal := none }) h

/-! ## The sequencer's answer -/

theorem Fixed.uncorrected {s t : State} (h : Fixed s t) : t.tb.uncorrected = s.tb.uncorrected := by
  have hu := congrArg TimeBase.uncorrected h.timeBase
  exact hu

theorem runElapsed_uncorrected (n count : Nat) (s : State) :
    (runElapsed n count s).tb.uncorrected = s.tb.uncorrected := (runElapsed_fixed n count s).uncorrected

/-- A run start adopts a pending correction and forms the latch (R28, R30). -/
theorem startRun_uncorrected (t0 : Nat) (internal : Bool) (s : State) :
    (startRun t0 internal s).tb.uncorrected = s.tb.uncorrected := by
  unfold startRun
  split
  · rfl
  · dsimp only
    rw [runElapsed_uncorrected, (enterState_fixed _ _ _).uncorrected, offer_tb]
    rfl

theorem handMark_uncorrected (mark : Nat) (internal : Bool) (s : State) :
    (handMark mark internal s).tb.uncorrected = s.tb.uncorrected := by
  by_cases h : awaitsSecond s
  · obtain ⟨hs, r, hr, ht⟩ := h
    rw [handMark_awaited hs hr ht]
    split
    · unfold tryStart
      split
      · exact startRun_uncorrected _ _ s
      · rfl
    · split <;> rfl
  · rw [handMark_unawaited h]

theorem endMark_uncorrected (mark : Nat) (internal : Bool) (s : State) :
    (endMark mark internal s).tb.uncorrected = s.tb.uncorrected := handMark_uncorrected mark internal s

/-- R16: E at the end of every mark, by the correction then in force. -/
theorem endMark_interval (mark : Nat) (internal : Bool) (s : State) :
    (endMark mark internal s).tb.interval = expectedInterval (endMark mark internal s).tb.c := rfl

/-! ## The calibration -/

/-- R27: the time base after a failed calibration. -/
theorem failCalibration_tb (count : Nat) (x : Calibration) (next : TbState) (s : State) :
    (failCalibration count x next s).tb = { s.tb with cal := none, state := next } := by
  unfold failCalibration timeRecord
  dsimp only
  split
  · rw [raiseNotice_tb, offerAt_tb, offerAt_tb, putTb_tb]
  · rw [raiseNotice_tb, offerAt_tb, putTb_tb]

theorem adoptResult_marks (c : Int) (s : State) : (adoptResult c s).tb.marks = s.tb.marks := by
  unfold adoptResult
  split <;> rfl

theorem finishCalibration_marks (count : Nat) (x : Calibration) (opening : Nat) (s : State) :
    (finishCalibration count x opening s).tb.marks = s.tb.marks := by
  unfold finishCalibration
  dsimp only
  split
  · rw [timeEvent_tb, adoptResult_marks]
    rfl
  · rw [timeEvent_tb]
    rfl

theorem calibrationPulse_marks (count : Nat) (x : Calibration) (s : State) :
    (calibrationPulse count x s).tb.marks = s.tb.marks := by
  unfold calibrationPulse
  split
  · rfl
  · split
    · exact finishCalibration_marks count x _ s
    · rfl

theorem calibrationRealign_marks (count : Nat) (x : Calibration) (s : State) :
    (calibrationRealign count x s).tb.marks = s.tb.marks := by
  unfold calibrationRealign
  split
  · exact calibrationPulse_marks count x s
  · rw [failCalibration_tb]
    rfl

theorem acceptPulse_marks (count second : Nat) (s : State) :
    (acceptPulse count second s).tb.marks = (s.tb.pulse count second).marks := by
  unfold acceptPulse
  dsimp only
  split
  · exact calibrationPulse_marks count _ _
  · split
    · rw [timeEvent_tb]
      rfl
    · rfl
  · rfl

theorem realignMark_marks (count second : Nat) (s : State) :
    (realignMark count second s).tb.marks = (s.tb.realign count second).marks := by
  unfold realignMark
  dsimp only
  split
  · exact calibrationRealign_marks count _ _
  · rfl

theorem placeInternal_marks (mark : Nat) (s : State) :
    (placeInternal mark s).tb.marks = (s.tb.internal mark).marks := by
  unfold placeInternal
  dsimp only
  split
  · rw [failCalibration_tb]
    rfl
  · split
    · rw [timeEvent_tb]
      rfl
    · rfl
  · rfl

/-! ## The marks after an edge and after an internal mark -/

theorem settle_tb (s : State) : (settle s).tb = s.tb := (settle_parts s).2.2.1

/-- R17: the marks after an accepted edge. -/
theorem ppsEdge_accepted_marks {s : State} (h : s.tb.accepts s.count = true) :
    (ppsEdge s).tb.marks = ((epochTaken s).tb.pulse s.count (edgeSecond s.tb)).marks := by
  rw [ppsEdge_accepted h, TimeBase.marks_of_uncorrected (endMark_uncorrected _ _ _), acceptPulse_marks]

/-- R20: the marks after a realigning mark. -/
theorem ppsEdge_realigned_marks {s : State} {n : Nat} (hn : s.tb.armedSecond = some n)
    (h : s.tb.accepts s.count = false) :
    (ppsEdge s).tb.marks = ((epochTaken s).tb.realign s.count n).marks := by
  rw [ppsEdge_realigned hn h, TimeBase.marks_of_uncorrected (endMark_uncorrected _ _ _), realignMark_marks]

/-- R17, R20: every edge that is taken becomes the previous mark, and E follows the correction. -/
theorem ppsEdge_taken {s : State} (h : s.tb.armedSecond.isSome ∨ s.tb.accepts s.count = true) :
    (ppsEdge s).tb.prevMark = some s.count ∧ (ppsEdge s).tb.interval = expectedInterval (ppsEdge s).tb.c := by
  cases ha : s.tb.accepts s.count with
  | true =>
    refine ⟨congrArg TimeBase.prevMark (ppsEdge_accepted_marks ha), ?_⟩
    rw [ppsEdge_accepted ha]
    rfl
  | false =>
    obtain ⟨n, hn⟩ := Option.isSome_iff_exists.1 (h.resolve_right (by simp [ha]))
    refine ⟨congrArg TimeBase.prevMark (ppsEdge_realigned_marks hn ha), ?_⟩
    rw [ppsEdge_realigned hn ha]
    rfl

/-- Settles O28: the mark by `TimeBase.marks`, E by the end of the mark. -/
theorem expectedIntervalFollowsTheCorrection : Obligations.ExpectedIntervalFollowsTheCorrection := by
  refine ⟨fun s hr h => ?edge, fun p s hr hp hc => ?internal⟩
  case edge =>
    refine ⟨settle (ppsEdge s), exec_ppsEdge hr, ?_⟩
    rw [settle_tb]
    exact ppsEdge_taken h
  case internal =>
    refine ⟨_, exec_internalMark hr hp hc, ?_⟩
    rw [settle_tb]
    refine ⟨?_, rfl⟩
    have hm := TimeBase.marks_of_uncorrected
      (endMark_uncorrected (p + s.tb.interval) true (placeInternal (p + s.tb.interval) s))
    exact congrArg TimeBase.prevMark (hm.trans (placeInternal_marks _ _))

end Sys2Proof.Machine

/-! # The edge under an armed second (R20) -/

namespace Sys2Proof.Machine

/-- R20: the marks after the edge under an armed second, in or outside the window. -/
theorem ppsEdge_armed_marks {s : State} {n : Nat} (hn : s.tb.armedSecond = some n) :
    (ppsEdge s).tb.marks =
      { s.tb.marks with
        prevMark := some s.count, second := n, epoch := true, armedSecond := none, internalRun := 0
        pulseRun := if s.tb.accepts s.count then min 2 (s.tb.pulseRun + 1) else 1 } := by
  have hs : edgeSecond s.tb = n := by rw [edgeSecond, hn, Option.getD_some]
  cases ha : s.tb.accepts s.count with
  | true =>
    rw [ppsEdge_accepted_marks ha, epochTaken_tb_armed hn, hs]
    rfl
  | false =>
    rw [ppsEdge_realigned_marks hn ha, epochTaken_tb_armed hn]
    rfl

/-- Settles O27: the marks in every case; then the edge accepted or realigning, in each state that ends no calibration. -/
theorem armedSecondIsTakenAtTheNextEdge : Obligations.ArmedSecondIsTakenAtTheNextEdge := by
  intro n s hr hn accepted run placed epoch marked
  have hm := ppsEdge_armed_marks hn
  have hs : edgeSecond s.tb = n := by rw [edgeSecond, hn, Option.getD_some]
  have htb : (epochTaken s).tb = placed := epochTaken_tb_armed hn
  have hepoch : epochTaken s = epoch := epochTaken_armed hn
  have inside (ha : accepted = true) :
      exec .ppsEdge s = .next (settle (endMark s.count false (acceptPulse s.count n epoch))) ∧
        marked = epoch.tb.pulse s.count n := by
    rw [exec_ppsEdge hr, ppsEdge_accepted ha, hs, ← hepoch, htb]
    exact ⟨rfl, by simp only [marked, run, ha, if_true]; rfl⟩
  have outside (ha : accepted = false) :
      exec .ppsEdge s = .next (settle (endMark s.count false (realignMark s.count n epoch))) ∧
        marked = epoch.tb.realign s.count n := by
    rw [exec_ppsEdge hr, ppsEdge_realigned hn ha, ← hepoch, htb]
    exact ⟨rfl, by simp only [marked, run, ha]; rfl⟩
  have state : epoch.tb.state = s.tb.state := hepoch ▸ epochTaken_state s
  have pulses : epoch.tb.pulseRun = s.tb.pulseRun := hepoch ▸ epochTaken_pulseRun s
  have record : epoch.tb.cal = s.tb.cal := hepoch ▸ epochTaken_cal s
  refine ⟨⟨settle (ppsEdge s), exec_ppsEdge hr, ?marks⟩,
    fun u => ⟨?plain, ?relock, fun x hc hx => ⟨?opened, ?counted⟩⟩⟩
  case marks =>
    rw [settle_tb]
    exact ⟨congrArg TimeBase.second hm, congrArg TimeBase.epoch hm, congrArg TimeBase.armedSecond hm,
      congrArg TimeBase.prevMark hm, congrArg TimeBase.internalRun hm, congrArg TimeBase.pulseRun hm⟩
  case plain =>
    intro hc hu
    cases ha : accepted with
    | true =>
      rw [(inside ha).1, acceptPulse_plain (by simpa [state, pulses, ha] using hc), ← (inside ha).2]
      exact next_endMark hu
    | false =>
      rw [(outside ha).1, realignMark_plain (by rw [state]; rintro h; simp [h] at hc), ← (outside ha).2]
      exact next_endMark hu
  case relock =>
    intro hc ha hp _ hu
    rw [(inside ha).1, acceptPulse_relock (state.trans hc) (pulses.symm ▸ hp), ← (inside ha).2]
    exact next_endMark hu
  case opened =>
    intro hp hu
    cases ha : accepted with
    | true =>
      rw [(inside ha).1, acceptPulse_calibrating (state.trans hc) (record.trans hx), ← (inside ha).2,
        calibrationPulse_waiting hp]
      exact next_endMark hu
    | false =>
      rw [(outside ha).1, realignMark_calibrating (state.trans hc) (record.trans hx), ← (outside ha).2,
        calibrationRealign_waiting hp]
      exact next_endMark hu
  case counted =>
    intro opening ha hp hk hu
    rw [(inside ha).1, acceptPulse_calibrating (state.trans hc) (record.trans hx), ← (inside ha).2,
      calibrationPulse_counted hp hk]
    exact next_endMark hu

end Sys2Proof.Machine

/-! # A calibration that fails (R27) -/

namespace Sys2Proof.Machine

@[simp] theorem timeRecord_tb (count : Nat) (e : TimeEvent) (c : Option Int) (n : Option Nat) (s : State) :
    (timeRecord count e c n s).tb = s.tb := offerAt_tb _ _ _

theorem afterInternal_eq (x : TbState) : afterInternal x = if x = .free then .free else .holdover := by
  cases x <;> rfl

/-- R27: a failure that restores the prior state writes CAL_FAILED alone. -/
theorem failCalibration_restored (count : Nat) (x : Calibration) (s : State) :
    failCalibration count x x.prior s =
      timeEvent count .calFailed none none (putTb { s.tb with cal := none, state := x.prior } s) := by
  have hp : ¬ (x.prior = .locked ∧ x.prior = .holdover) := by
    rintro ⟨h, h'⟩
    rw [h] at h'
    cases h'
  simp only [failCalibration, if_neg hp]
  rfl

/-- R27: a failure by an internal mark writes HOLDOVER as well where the prior state is LOCKED. -/
theorem failCalibration_internal (count : Nat) (x : Calibration) (s : State) :
    let failed := timeRecord count .calFailed none none
      (putTb { s.tb with cal := none, state := if x.prior = .free then .free else .holdover } s)
    failCalibration count x (afterInternal x.prior) s =
      raiseNotice .timebase
        (if x.prior = .locked then timeRecord count .holdover none (some s.tb.second) failed else failed) := by
  intro failed
  have hp : (x.prior = .locked ∧ (if x.prior = .free then TbState.free else .holdover) = .holdover) ↔
      x.prior = .locked := ⟨fun h => h.1, fun h => ⟨h, by rw [h]; rfl⟩⟩
  have hs : failed.tb.second = s.tb.second := by rw [timeRecord_tb, putTb_tb]
  rw [← hs]
  simp only [failCalibration, afterInternal_eq, hp, failed]

/-- What a mark that ended a calibration leaves of it. -/
theorem endMark_failed (mark : Nat) (internal : Bool) (count : Nat) (x : Calibration) (next : TbState) (s : State) :
    let t := endMark mark internal (failCalibration count x next s)
    t.tb.cal = none ∧ t.tb.state = next := by
  intro t
  have hu : t.tb.uncorrected = (failCalibration count x next s).tb.uncorrected := endMark_uncorrected _ _ _
  rw [failCalibration_tb] at hu
  exact ⟨congrArg TimeBase.cal hu, congrArg TimeBase.state hu⟩

/-- Settles O31: the rejected edge, the realigning mark in COUNTING, and the internal mark. -/
theorem calibrationFailsByMarkOrEdge : Obligations.CalibrationFailsByMarkOrEdge := by
  intro x s hr hs hx
  refine ⟨fun hn ha => ?rejected, fun n opening hn ha hp => ?realigned, fun p hp hc => ?internal⟩
  case rejected =>
    rw [exec_ppsEdge hr, ppsEdge_rejected hn ha, rejectEdge_calibrating hs hx, failCalibration_restored]
    rfl
  case realigned =>
    have he : exec .ppsEdge s = .next (settle (endMark s.count false
        (failCalibration s.count x x.prior (putTb ((epochTaken s).tb.realign s.count n) (epochTaken s))))) := by
      rw [exec_ppsEdge hr, ppsEdge_realigned hn ha,
        realignMark_calibrating ((epochTaken_state s).trans hs) ((epochTaken_cal s).trans hx),
        calibrationRealign_counting hp]
    refine ⟨⟨_, he, ?_⟩, fun u hu => ?_⟩
    · rw [settle_tb]
      exact endMark_failed _ _ _ _ _ _
    · rw [he, failCalibration_restored, epochTaken_tb_armed hn, epochTaken_armed hn]
      exact next_endMark hu
  case internal =>
    have he : exec .internalMark s = .next (settle (endMark (p + s.tb.interval) true
        (failCalibration (p + s.tb.interval) x (afterInternal x.prior)
          (putTb (s.tb.internal (p + s.tb.interval)) s)))) := by
      rw [exec_internalMark hr hp hc, placeInternal_calibrating hs hx]
    refine ⟨⟨_, he, ?_⟩, fun u hu => ?_⟩
    · rw [settle_tb, ← afterInternal_eq]
      exact endMark_failed _ _ _ _ _ _
    · rw [he, failCalibration_internal]
      exact next_endMark hu

end Sys2Proof.Machine

/-! # The pulse that closes a calibration (R24, R25, R28) -/

namespace Sys2Proof.Machine

/-! ## When it is due -/

theorem closingPulseDue_iff (s : State) :
    closingPulseDue s = true ↔
      s.tb.accepts s.count = true ∧ s.tb.state = .calibrating ∧
        ∃ y opening, s.tb.cal = some y ∧ y.phase = .counting opening ∧ y.pulses + 1 = y.k := by
  unfold closingPulseDue
  cases s.tb.cal with
  | none => simp
  | some y => cases hp : y.phase <;> simp [hp, and_assoc]

theorem exec_closingPulse {s : State} (hr : s.resetLine = false) (hd : closingPulseDue s = true) :
    exec .closingPulse s = exec .ppsEdge s := by
  rw [exec_ppsEdge hr]
  exact (act_released hr).trans (by rw [whenDue, if_pos hd])

/-! ## Its result -/

theorem inCorrectionRange_iff (c : Int) : inCorrectionRange c = true ↔ -100000 ≤ c ∧ c ≤ 100000 := by
  simp [inCorrectionRange]

section
variable {count opening : Nat} {x : Calibration} {result : Int} {s : State}

theorem finishCalibration_rejected (hc : calibrated x.k (count - opening) = result)
    (h : inCorrectionRange result = false) :
    finishCalibration count x opening s =
      timeEvent count .calRejected (some result) none
        (putTb { s.tb with cal := none, state := x.prior } s) := by
  simp only [finishCalibration, hc, h]
  rfl

theorem finishCalibration_adopted (hc : calibrated x.k (count - opening) = result)
    (h : inCorrectionRange result = true) (hs : s.sq.state = .idle) :
    finishCalibration count x opening s =
      timeEvent count .calDone (some result) none
        (putTb { s.tb with
          cal := none, state := .locked, c := result, pendingC := none } s) := by
  simp only [finishCalibration, hc, h, adoptResult, putTb_sq, hs, if_true]
  rfl

theorem holdResult_eq (s : State) :
    holdResult s = { s with sq := if s.sq.state = .armed then { s.sq with resultHeld := true } else s.sq } := by
  unfold holdResult
  split <;> simp [*]

theorem finishCalibration_pending (hc : calibrated x.k (count - opening) = result)
    (h : inCorrectionRange result = true) (hs : s.sq.state ≠ .idle) :
    finishCalibration count x opening s =
      timeEvent count .calDone (some result) none
        (putTb { s.tb with cal := none, state := .locked, pendingC := some result }
          { s with sq := if s.sq.state = .armed then { s.sq with resultHeld := true } else s.sq }) := by
  simp only [finishCalibration, hc, h, adoptResult, putTb_sq, hs, if_true, if_false, holdResult_eq]
  rfl

end

/-! ## The mark -/

section
variable {x : Calibration} {opening : Nat} {result : Int} {s : State} (ha : s.tb.accepts s.count = true)
  (hs : s.tb.state = .calibrating) (hx : s.tb.cal = some x) (hp : x.phase = .counting opening)
  (hk : x.pulses + 1 = x.k)
include ha hs hx hp hk

/-- R24: the closing pulse, on the state in which its own effects begin. -/
theorem ppsEdge_closing :
    ppsEdge s = endMark s.count false (finishCalibration s.count x opening
      (putTb ((epochTaken s).tb.pulse s.count (edgeSecond s.tb)) (epochTaken s))) := by
  rw [ppsEdge_accepted ha, acceptPulse_calibrating ((epochTaken_state s).trans hs) ((epochTaken_cal s).trans hx),
    calibrationPulse_closing hp hk]

variable (hc : calibrated x.k (s.count - opening) = result)
include hc

theorem ppsEdge_closing_rejected (h : inCorrectionRange result = false) :
    ppsEdge s = endMark s.count false (timeEvent s.count .calRejected (some result) none
      (putTb { (epochTaken s).tb.pulse s.count (edgeSecond s.tb) with cal := none, state := x.prior }
        (epochTaken s))) := by
  rw [ppsEdge_closing ha hs hx hp hk, finishCalibration_rejected hc h]
  rfl

theorem ppsEdge_closing_adopted (h : inCorrectionRange result = true) (hq : s.sq.state = .idle) :
    ppsEdge s = endMark s.count false (timeEvent s.count .calDone (some result) none
      (putTb { (epochTaken s).tb.pulse s.count (edgeSecond s.tb) with
        cal := none, state := .locked, c := result, pendingC := none } (epochTaken s))) := by
  rw [ppsEdge_closing ha hs hx hp hk, finishCalibration_adopted hc h (by rw [putTb_sq, epochTaken_sq]; exact hq)]
  rfl

theorem ppsEdge_closing_pending (h : inCorrectionRange result = true) (hq : s.sq.state ≠ .idle) :
    ppsEdge s = endMark s.count false (timeEvent s.count .calDone (some result) none
      (putTb { (epochTaken s).tb.pulse s.count (edgeSecond s.tb) with
          cal := none, state := .locked, pendingC := some result }
        { epochTaken s with
          sq := if s.sq.state = .armed then { s.sq with resultHeld := true } else s.sq })) := by
  rw [ppsEdge_closing ha hs hx hp hk, finishCalibration_pending hc h (by rw [putTb_sq, epochTaken_sq]; exact hq),
    putTb_sq, epochTaken_sq]
  rfl

end

/-- R17, R20: the time base of an accepted edge, with or without an armed second. -/
theorem epochTaken_pulse (s : State) :
    (epochTaken s).tb.pulse s.count (edgeSecond s.tb) =
      { s.tb with
        prevMark := some s.count, second := edgeSecond s.tb, internalRun := 0, pulseRun := min 2 (s.tb.pulseRun + 1)
        epoch := s.tb.epoch || s.tb.armedSecond.isSome, armedSecond := none } := by
  cases hn : s.tb.armedSecond with
  | some n =>
    rw [epochTaken_tb_armed hn]
    simp [TimeBase.pulse]
  | none =>
    rw [epochTaken_unarmed hn]
    simp [TimeBase.pulse, hn]

/-- A mark handed to an idle sequencer. -/
theorem markHanded_idle {mark : Nat} {internal : Bool} {s : State} (h : s.sq.state = .idle) :
    markHanded mark internal s s := by
  refine ⟨fun _ => rfl, fun r ha => ?_⟩
  rw [h] at ha
  cases ha

/-- Settles O30: the result adopted, pending or rejected, on the state in which the pulse's own effects begin. -/
theorem closingPulseGivesTheCorrection : Obligations.ClosingPulseGivesTheCorrection := by
  intro k opening n prior s u hr ha hs hx hk _ next second placed epoch base marked result held found
  have hbase : epochTaken s = base := by
    cases hn : s.tb.armedSecond with
    | some m =>
      have hm : second = m := by simp only [second, hn, Option.getD_some]
      simp only [base, epoch, placed, hn, hm, Option.isSome_some, if_true, epochTaken_armed hn]
      rfl
    | none =>
      simp only [base, hn, Option.isSome_none, Bool.false_eq_true, if_false, epochTaken_unarmed hn]
  have hsq : base.sq = s.sq := hbase ▸ epochTaken_sq s
  have hstate : base.sq.state = s.sq.state := congrArg Sequencer.state hsq
  have hself : ({ base with sq := s.sq } : State) = base := congrArg (fun q => { base with sq := q }) hsq.symm
  refine ⟨exec_closingPulse hr ((closingPulseDue_iff s).2 ⟨ha, hs, _, _, hx, rfl, hk⟩), fun lo hi hq => ?adopted,
    fun lo hi hq hu => ?pending, fun out hu => ?rejected⟩
  case adopted =>
    have within : inCorrectionRange result = true := (inCorrectionRange_iff _).2 ⟨lo, hi⟩
    rw [exec_ppsEdge hr, ppsEdge_closing_adopted ha hs hx rfl hk rfl within hq, epochTaken_pulse, hbase]
    simp only [found, hself]
    exact next_endMark (markHanded_idle (by rw [timeEvent_sq]; exact hstate.trans hq))
  case pending =>
    have within : inCorrectionRange result = true := (inCorrectionRange_iff _).2 ⟨lo, hi⟩
    rw [exec_ppsEdge hr, ppsEdge_closing_pending ha hs hx rfl hk rfl within hq, epochTaken_pulse, hbase]
    exact next_endMark hu
  case rejected =>
    have beyond : inCorrectionRange result = false := Bool.eq_false_iff.2 fun h => out ((inCorrectionRange_iff _).1 h)
    rw [exec_ppsEdge hr, ppsEdge_closing_rejected ha hs hx rfl hk rfl beyond, epochTaken_pulse, hbase]
    simp only [found, hself] at hu
    exact next_endMark hu

end Sys2Proof.Machine

/-! # What an operation leaves besides its records

The offer of a record touches the store and the notice place. `State.bare` is the state without these two, so one
equation of bare states says what an operation that writes records does to all the rest. -/

namespace Sys2Proof.Machine

/-- The state without what the offer of a record touches. -/
def State.bare (s : State) : State := { s with rs := .reset, cl := { s.cl with notice := none } }

theorem foldl_keeps {α β : Type} {f : State → α → State} {g : State → β} (h : ∀ s a, g (f s a) = g s) (l : List α)
    (s : State) : g (l.foldl f s) = g s := by
  induction l generalizing s with
  | nil => rfl
  | cons a l ih => exact (ih (f s a)).trans (h s a)

@[simp] theorem raiseNotice_bare (c : NoticeCause) (s : State) : (raiseNotice c s).bare = s.bare := rfl

@[simp] theorem offer_bare (run time : Nat) (body : RecordBody) (s : State) : (offer run time body s).bare = s.bare := by
  unfold offer judgeFill
  dsimp only
  split <;> rfl

@[simp] theorem offerRun_bare (time : Nat) (body : RecordBody) (s : State) : (offerRun time body s).bare = s.bare :=
  offer_bare _ _ _ _

@[simp] theorem breakerRecord_bare (time : Nat) (x : BreakerSubject) (e : BreakerRecord) (d : Option Nat) (s : State) :
    (breakerRecord time x e d s).bare = s.bare := offer_bare _ _ _ _

/-! ## The assessment unit -/

/-- Besides its records the operation changes the assessment unit alone. -/
def Assessed (s t : State) : Prop := t.bare = { s.bare with asmt := t.asmt }

theorem Assessed.refl (s : State) : Assessed s s := rfl

theorem Assessed.trans {s t u : State} (h : Assessed s t) (k : Assessed t u) : Assessed s u := by
  unfold Assessed at *
  rw [k, h]

theorem Assessed.fold {α : Type} {f : State → α → State} (h : ∀ s a, Assessed s (f s a)) (l : List α) (s : State) :
    Assessed s (l.foldl f s) := by
  induction l generalizing s with
  | nil => exact .refl s
  | cons a l ih => exact (h s a).trans (ih (f s a))

theorem decideItem_assessed (k : Nat) (x : ItemRun) (d : Decision) (m : Option Int) (head : Nat) (s : State) :
    Assessed s (decideItem k x d m head s) := by
  unfold decideItem
  split
  · exact .refl s
  · unfold Assessed
    rw [offerRun_bare, offerRun_asmt]
    rfl

theorem endItem_assessed (a : Bool) (head : Nat) (s : State) (k : Nat) : Assessed s (endItem a head s k) := by
  unfold endItem
  split
  · exact .refl s
  · split
    · exact .refl s
    · split
      · exact decideItem_assessed _ _ _ _ _ s
      · exact .refl s

theorem endVisit_assessed (a : Bool) (head : Nat) (s : State) : Assessed s (endVisit a head s) :=
  (Assessed.fold (endItem_assessed a head) _ s).trans rfl

section
variable {s t : State} (h : Assessed s t)
include h

theorem Assessed.count : t.count = s.count := by
  have := congrArg State.count h
  exact this
theorem Assessed.tb : t.tb = s.tb := by
  have := congrArg State.tb h
  exact this
theorem Assessed.ci : t.ci = s.ci := by
  have := congrArg State.ci h
  exact this
theorem Assessed.ws : t.ws = s.ws := by
  have := congrArg State.ws h
  exact this
theorem Assessed.al : t.al = s.al := by
  have := congrArg State.al h
  exact this
theorem Assessed.bs : t.bs = s.bs := by
  have := congrArg State.bs h
  exact this
theorem Assessed.bo : t.bo = s.bo := by
  have := congrArg State.bo h
  exact this
theorem Assessed.st : t.st = s.st := by
  have := congrArg State.st h
  exact this
theorem Assessed.sq : t.sq = s.sq := by
  have := congrArg State.sq h
  exact this

end

section
variable (a : Bool) (head : Nat) (s : State)

@[simp] theorem endVisit_count : (endVisit a head s).count = s.count := (endVisit_assessed a head s).count
@[simp] theorem endVisit_tb : (endVisit a head s).tb = s.tb := (endVisit_assessed a head s).tb
@[simp] theorem endVisit_ci : (endVisit a head s).ci = s.ci := (endVisit_assessed a head s).ci
@[simp] theorem endVisit_ws : (endVisit a head s).ws = s.ws := (endVisit_assessed a head s).ws
@[simp] theorem endVisit_al : (endVisit a head s).al = s.al := (endVisit_assessed a head s).al
@[simp] theorem endVisit_bs : (endVisit a head s).bs = s.bs := (endVisit_assessed a head s).bs
@[simp] theorem endVisit_bo : (endVisit a head s).bo = s.bo := (endVisit_assessed a head s).bo
@[simp] theorem endVisit_st : (endVisit a head s).st = s.st := (endVisit_assessed a head s).st
@[simp] theorem endVisit_sq : (endVisit a head s).sq = s.sq := (endVisit_assessed a head s).sq

end

/-! ## State entry (R154) -/

theorem enterState_empty {n : Fin 24} {t : Nat} {s : State} (h : s.st.entries[n] = none) : enterState n t s = s := by
  unfold enterState
  split
  · rfl
  · next e he => rw [h] at he; cases he

section
variable (n : Fin 24) (t : Nat) (s : State)

@[simp] theorem enterState_count : (enterState n t s).count = s.count := by
  unfold enterState; split <;> simp
@[simp] theorem enterState_tb : (enterState n t s).tb = s.tb := by
  unfold enterState; split <;> simp
@[simp] theorem enterState_al : (enterState n t s).al = s.al := by
  unfold enterState; split <;> simp
@[simp] theorem enterState_bs : (enterState n t s).bs = s.bs := by
  unfold enterState; split <;> simp
@[simp] theorem enterState_lastGrid : (enterState n t s).ws.lastGrid = s.ws.lastGrid := by
  unfold enterState; split <;> simp [loadEntry]

end

end Sys2Proof.Machine

/-! # The rows that name an instant of the part's own (log 4)

Each such row is `act` of `whenDue`: its condition, spelled out once per row below, decides between the whole step and
nothing. -/

namespace Sys2Proof.Machine

/-! ## What a row leaves -/

theorem arbitrate_fixed (s : State) : Fixed s (arbitrate s) := by
  unfold arbitrate
  repeat' split
  all_goals exact .of_eq rfl rfl rfl rfl rfl rfl rfl rfl rfl rfl

theorem settle_fixed (s : State) : Fixed s (settle s) :=
  (refreshOutputs_fixed s.inRun s).trans (arbitrate_fixed _)

theorem settle_count (s : State) : (settle s).count = s.count := by
  unfold settle arbitrate
  repeat' split
  all_goals rfl

theorem settle_pending (s : State) : (settle s).pending = s.pending := by
  unfold settle arbitrate
  repeat' split
  all_goals rfl

/-- The rows of the sample grid have one effect, each under its own condition (log 4). -/
theorem exec_gridRow {c : Instr}
    (h : c ∈ ([.gridInstant, .springCharged, .discrepancyTrip, .guardExpiry, .limit] : List Instr) ∨
      (∃ p, c = .contactsParted p ∨ c = .interruptedForced p ∨ c = .closingExpiry p) ∨ (∃ i, c = .afterExit i))
    (s : State) : ∃ due, exec c s = act (whenDue due gridInstant) s := by
  obtain h | ⟨p, rfl | rfl | rfl⟩ | ⟨i, rfl⟩ := h
  · simp only [List.mem_cons, List.not_mem_nil, or_false] at h
    obtain rfl | rfl | rfl | rfl | rfl := h <;> exact ⟨_, rfl⟩
  all_goals exact ⟨_, rfl⟩

/-! ## A row, due and not due -/

section
variable {c : Instr} {due : Prop} {b : Bool} {f : State → State} {whole : Host.Outcome State Fault Refusal} {s : State}

theorem exec_due (hr : s.resetLine = false) (he : exec c s = act (whenDue b f) s) (hb : b = true) :
    exec c s = .next (settle (f s)) := by
  rw [he, act_released hr, whenDue, if_pos hb]

theorem exec_notDue (hr : s.resetLine = false) (he : exec c s = act (whenDue b f) s) (hb : b = false) :
    exec c s = .next (settle s) := by
  rw [he, act_released hr, whenDue, if_neg (Bool.eq_false_iff.1 hb)]

/-- A row whose condition is `due` and whose effect is the whole step `whole`. -/
theorem onlyWhenDue_of_iff (hr : s.resetLine = false) (he : exec c s = act (whenDue b f) s) (hb : b = true ↔ due)
    (hw : due → whole = .next (settle (f s))) : onlyWhenDue c due whole s :=
  ⟨fun hd => (exec_due hr he (hb.2 hd)).trans (hw hd).symm,
    fun hd => exec_notDue hr he (Bool.eq_false_iff.2 fun h => hd (hb.1 h))⟩

theorem exec_gridInstant (hr : s.resetLine = false) (hg : s.count = s.ws.nextGrid) :
    exec .gridInstant s = .next (settle (gridInstant s)) :=
  exec_due (b := gridDue s) hr rfl (by simpa [gridDue] using hg)

/-- A row of the sample grid. -/
theorem onlyWhenDue_grid (hr : s.resetLine = false) (he : exec c s = act (whenDue b gridInstant) s)
    (hb : b = true ↔ due) (hg : due → s.count = s.ws.nextGrid) : onlyWhenDue c due (exec .gridInstant s) s :=
  onlyWhenDue_of_iff hr he hb fun hd => exec_gridInstant hr (hg hd)

end

/-! ## The conditions of the rows -/

section
variable {s : State} (hr : s.resetLine = false)
include hr

theorem sampleDue_iff : sampleDue s = true ↔ sampleHere s := by
  simp [sampleDue, sampleHere, gridDue, hr, and_assoc]

theorem partingDue_iff (p : Pole) :
    partingDue p s = true ↔
      sampleHere s ∧ ∃ start, s.bs.poles.get p = .tripping start ∧ start + s.bs.settings.opening.get p ≤ s.now := by
  rw [← sampleDue_iff hr]
  unfold partingDue
  cases s.bs.poles.get p <;> simp [expired]

theorem forcingDue_iff (p : Pole) :
    forcingDue p s = true ↔
      sampleHere s ∧ ∃ start, s.bs.poles.get p = .arcing start ∧ start + s.bs.settings.arcing ≤ s.now := by
  rw [← sampleDue_iff hr]
  unfold forcingDue
  cases s.bs.poles.get p <;> simp [expired]

theorem closingDue_iff (p : Pole) :
    closingDue p s = true ↔
      sampleHere s ∧ ∃ start, s.bs.poles.get p = .closing start ∧ start + s.bs.settings.closing ≤ s.now := by
  rw [← sampleDue_iff hr]
  unfold closingDue
  cases s.bs.poles.get p <;> simp [expired]

theorem chargeDue_iff :
    chargeDue s = true ↔
      sampleHere s ∧ ∃ start, s.bs.spring = .charging (some start) ∧ start + s.bs.settings.charge ≤ s.now := by
  rw [← sampleDue_iff hr]
  unfold chargeDue
  cases s.bs.spring with
  | charged => simp
  | charging start => cases start <;> simp [expired]

end

theorem judges_iff (s : State) : s.judges = true ↔ s.sq.state = .running ∧ s.sq.taken = none := by
  simp [State.judges]

theorem currentEntry_eq_some {s : State} {e : Entry} :
    s.currentEntry = some e ↔ ∃ n, s.sq.current = some n ∧ s.st.entries[n] = some e := by
  unfold State.currentEntry
  cases s.sq.current <;> simp

theorem afterFires_iff (s : State) (count time : Nat) :
    afterFires s count time = true ↔
      s.entryTime + time ≤ s.runTimeAt count ∧
        (s.sq.entrySample = true ∨ s.runTimeAt (count - 500) < s.entryTime + time) := by
  simp [afterFires]

theorem afterDue_iff {s : State} (hr : s.resetLine = false) (i : Fin 6) :
    let judged := judgedState s
    afterDue i s = true ↔
      (sampleHere s ∧ judged.sq.state = .running ∧ judged.sq.taken = none) ∧
        ∃ n e y time, judged.sq.current = some n ∧ judged.st.entries[n] = some e ∧ e.exits[i.val]? = some y ∧
          y.trigger = .after time ∧ judged.entryTime + time ≤ judged.runTimeAt s.count ∧
          (judged.sq.entrySample = true ∨ judged.runTimeAt (s.count - 500) < judged.entryTime + time) := by
  intro judged
  rw [← sampleDue_iff hr, ← judges_iff]
  unfold afterDue
  cases he : judged.currentEntry with
  | none =>
    have hn : ∀ n, judged.sq.current = some n → ∀ e, judged.st.entries[n] ≠ some e := fun n hn e h =>
      absurd (currentEntry_eq_some.2 ⟨n, hn, h⟩) (by simp [he])
    constructor
    · simp [judged]
    · rintro ⟨-, n, e, -, -, hn', h, -⟩
      exact absurd h (hn n hn' e)
  | some e =>
    obtain ⟨n, hn, hen⟩ := currentEntry_eq_some.1 he
    have hen' : judged.st.entries[n.val] = some e := hen
    simp only [judged] at he hn hen'
    cases hy : e.exits[i.val]? with
    | none => simp [judged, hn, hen', hy]
    | some y => cases ht : y.trigger <;> simp [judged, hn, hen', hy, ht, afterFires_iff, and_assoc]

theorem guardDue_iff {s : State} (hr : s.resetLine = false) :
    let judged := judgedState s
    guardDue s = true ↔
      (sampleHere s ∧ judged.sq.state = .running ∧ judged.sq.taken = none) ∧
        ∃ g, judged.sq.guard = some g ∧ g.expiry ≤ s.now := by
  intro judged
  rw [← sampleDue_iff hr, ← judges_iff]
  unfold guardDue
  cases (judgedState s).sq.guard <;> simp [judged]

theorem sampleEnd_limit (t : Nat) (s : State) :
    sampleEnd t s = some .limit ↔ 4000000000 ≤ t ∧ ∀ y, s.sq.taken = some y → y.target ≠ .finish := by
  have he : s.ending = false ↔ ∀ y, s.sq.taken = some y → y.target ≠ .finish := by
    unfold State.ending
    cases s.sq.taken <;> simp
  rw [← he]
  unfold sampleEnd runTimeLimit
  cases s.ending <;> simp

theorem limitDue_iff (s : State) :
    limitDue s = true ↔
      s.count = s.ws.nextGrid ∧ s.inRun = true ∧ 4000000000 ≤ s.now ∧
        ∀ y, s.sq.taken = some y → y.target ≠ .finish := by
  rw [← sampleEnd_limit]
  simp [limitDue, gridDue, and_assoc]

theorem ackTaken_iff (x : AmpGroup) (number flags : Byte) (check : Half) :
    ackTaken x number flags check = true ↔
      check = crc16 [0x5A, number, flags] ∧ (x.state = .settling ∨ x.state = .ready) ∧
        x.outstanding = some number := by
  show _ ↔ check = ackCheck number flags ∧ _
  simp [ackTaken, AmpGroup.isSent, and_assoc]

theorem settlingDue_iff (g : Group) (number flags : Byte) (check : Half) (s : State) :
    let y := s.al.get g
    settlingDue g number flags check s = true ↔
      (check = crc16 [0x5A, number, flags] ∧ y.outstanding = some number ∧ flags.getLsbD 4 = false) ∧
        y.state = .settling ∧ y.acked = 1999 := by
  intro y
  simp only [settlingDue, overTempFlag, Bool.and_eq_true, decide_eq_true_eq, Bool.not_eq_true', ackTaken_iff, y]
  tauto

theorem countOverload_raised (flag : Bool) (run : Nat) (episode : Bool) :
    (countOverload flag run episode).2.2 = true ↔ flag = true ∧ 19 ≤ run ∧ episode = false := by
  unfold countOverload
  dsimp only
  cases flag with
  | false => simp
  | true =>
    have hr : min 20 (run + 1) = 20 ↔ 19 ≤ run := by omega
    rw [if_pos rfl]
    split <;> simp_all

theorem overloadDue_iff (g : Group) (k : Fin 4) (number flags : Byte) (check : Half) (s : State) :
    let y := s.al.get g
    overloadDue g k number flags check s = true ↔
      (check = crc16 [0x5A, number, flags] ∧ y.outstanding = some number ∧ flags.getLsbD 4 = false) ∧
        (y.state = .settling ∨ y.state = .ready) ∧ flags.getLsbD k.val = true ∧ 19 ≤ y.overRun[k] ∧
        y.episode[k] = false := by
  intro y
  simp only [overloadDue, overTempFlag, overloadFlag, Bool.and_eq_true, Bool.not_eq_true', ackTaken_iff,
    countOverload_raised, y]
  tauto

/-! ## The discrepancy trip (R110, R111)

It is judged on the positions of stages 1 to 4, with the phase and the settings that stand before the sample. -/

theorem clipEpisodes_bs (t : Nat) (s : State) : (clipEpisodes t s).bs = s.bs := by
  refine foldl_keeps (g := State.bs) (fun s ch => ?_) _ s
  unfold clipEpisode
  dsimp only
  split
  · simp [putClip]
  · split
    · simp [putClip]
    · rfl

theorem computeWaves_bs (t : Nat) (s : State) :
    (computeWaves t s).1.bs = (interruptPoles t (if s.sq.entrySample then dropOpenDc s else s)).bs := by
  unfold computeWaves
  dsimp only
  rw [advanceAll_bs, clipEpisodes_bs]

/-- A pole's move with its record leaves the discrepancy phase. -/
theorem movePole_discrepancy (t : Nat) (x : BreakerSubject) (e : BreakerRecord) (d : Option Nat) (p : Pole)
    (q : Position) (s : State) : (breakerRecord t x e d (putPole p q s)).bs.discrepancy = s.bs.discrepancy := by
  unfold breakerRecord
  rw [offerRun_bs]
  rfl

theorem partContacts_discrepancy (t : Nat) (s : State) (p : Pole) :
    (partContacts t s p).bs.discrepancy = s.bs.discrepancy := by
  unfold partContacts
  repeat' split
  all_goals first | rfl | exact movePole_discrepancy ..

theorem forceOpen_discrepancy (t : Nat) (s : State) (p : Pole) :
    (forceOpen t s p).bs.discrepancy = s.bs.discrepancy := by
  unfold forceOpen
  repeat' split
  all_goals first | rfl | exact movePole_discrepancy ..

theorem finishClosing_discrepancy (t : Nat) (s : State) (p : Pole) :
    (finishClosing t s p).bs.discrepancy = s.bs.discrepancy := by
  unfold finishClosing
  repeat' split
  all_goals first | rfl | exact movePole_discrepancy ..

theorem interruptPole_discrepancy (t : Nat) (s : State) (p : Pole) :
    (interruptPole t s p).bs.discrepancy = s.bs.discrepancy := by
  unfold interruptPole
  dsimp only
  repeat' split
  all_goals first | rfl | exact movePole_discrepancy ..

theorem breakerExpiries_discrepancy (t : Nat) (s : State) :
    (breakerExpiries t s).bs.discrepancy = s.bs.discrepancy := by
  have parted := foldl_keeps (g := (·.bs.discrepancy)) (partContacts_discrepancy t) poleOrder s
  have forced := foldl_keeps (g := (·.bs.discrepancy)) (forceOpen_discrepancy t) poleOrder
    (poleOrder.foldl (partContacts t) s)
  have closed := foldl_keeps (g := (·.bs.discrepancy)) (finishClosing_discrepancy t) poleOrder
    (poleOrder.foldl (forceOpen t) (poleOrder.foldl (partContacts t) s))
  have all := closed.trans (forced.trans parted)
  unfold breakerExpiries breakerRecord
  dsimp only
  split
  · rw [offerRun_bs]
    exact all
  · exact all

theorem beginSample_bs (t : Nat) (s : State) : (beginSample t s).bs = s.bs := by
  unfold beginSample
  split
  · exact enterState_bs _ t s
  · rfl

theorem discrepancyExpires_iff (t : Nat) (bs : Breaker) :
    discrepancyExpires t bs = true ↔
      bs.settings.discrepancy ≠ 0 ∧ disagreement bs.poles = true ∧
        ∃ start, bs.discrepancy = .timing start ∧ start + bs.settings.discrepancy ≤ t := by
  unfold discrepancyExpires
  cases bs.discrepancy <;> simp [expired, and_assoc]

/-- The breaker simulator when stage 6 of a sample begins. -/
theorem judgedBreaker (t : Nat) (s : State) :
    let u := breakerExpiries t (beginSample t s)
    let v := interruptPoles t (if u.sq.entrySample then dropOpenDc u else u)
    (computeWaves t u).1.bs = v.bs ∧ v.bs.settings = s.bs.settings ∧ v.bs.discrepancy = s.bs.discrepancy := by
  intro u v
  have begun := beginSample_bs t s
  have dropped : (if u.sq.entrySample then dropOpenDc u else u).bs = u.bs := by split <;> rfl
  refine ⟨computeWaves_bs t u, ?settings, ?phase⟩
  case settings =>
    have hv : v.bs.settings = _ := (interruptPoles_fixed t _).breaker
    rw [hv, dropped, (breakerExpiries_fixed t _).breaker, begun]
  case phase =>
    have hv : v.bs.discrepancy = _ := foldl_keeps (g := (·.bs.discrepancy)) (interruptPole_discrepancy t) poleOrder _
    rw [hv, dropped, breakerExpiries_discrepancy, begun]

theorem discrepancyDue_iff {s : State} (hr : s.resetLine = false) :
    let u := breakerExpiries s.now (beginSample s.now s)
    let v := interruptPoles s.now (if u.sq.entrySample then dropOpenDc u else u)
    discrepancyDue s = true ↔
      sampleHere s ∧ s.bs.settings.discrepancy ≠ 0 ∧ disagreement v.bs.poles = true ∧
        ∃ start, s.bs.discrepancy = .timing start ∧ start + s.bs.settings.discrepancy ≤ s.now := by
  intro u v
  obtain ⟨waves, settings, phase⟩ := judgedBreaker s.now s
  rw [← sampleDue_iff hr, discrepancyDue, Bool.and_eq_true, discrepancyExpires_iff, waves, settings, phase]

end Sys2Proof.Machine

/-! # The grid instant and the rows that name an instant (R54; log 4) -/

namespace Sys2Proof.Machine

theorem takeGrid_fixed (s : State) : Fixed { s with ws := { s.ws with nextGrid := s.count + 500 } } (takeGrid s) :=
  .of_eq rfl rfl rfl rfl rfl rfl rfl rfl rfl rfl

/-- What a row of the sample grid leaves, due or not: all that `Fixed` says but the next grid instant. -/
theorem gridRow_leaves {c : Instr} {due : Bool} {s t : State} (he : exec c s = act (whenDue due gridInstant) s)
    (h : exec c s = .next t) :
    (∃ n, Fixed { s with ws := { s.ws with nextGrid := n } } t) ∧ t.count = s.count ∧ t.pending = s.pending := by
  rw [he] at h
  obtain hr | hr := Bool.eq_false_or_eq_true s.resetLine
  · rw [act_asserted hr] at h
    cases h
    exact ⟨⟨s.ws.nextGrid, .refl s⟩, rfl, rfl⟩
  · rw [act_released hr] at h
    cases h
    rw [settle_count, settle_pending]
    cases due with
    | false => exact ⟨⟨s.ws.nextGrid, settle_fixed s⟩, rfl, rfl⟩
    | true =>
      have fired : whenDue true gridInstant s = gridInstant s := rfl
      rw [fired]
      exact ⟨⟨s.count + 500, ((takeGrid_fixed s).trans (gridInstant_fixed s)).trans (settle_fixed _)⟩,
        gridInstant_count s, (gridInstant_sound s).quiet.pending⟩

/-- No event of the rows that name one is due: the step comes to its end alone. -/
theorem exec_idleRow {c : Instr} {s : State} (hr : s.resetLine = false)
    (h : (c = .gridInstant ∧ s.count ≠ s.ws.nextGrid) ∨
      (∃ contacts sync, c = .contactSample contacts sync ∧ s.count ≠ s.ci.nextSample) ∨
      (c = .qualification 0 ∧ ∀ first samples, s.ci.sync.qualifier = .candidate first samples → samples.length ≠ 3) ∨
      (∃ k : Fin 12, c = .qualification k.succ ∧
        ∀ first samples, s.ci.inputs[k].qualifier = .candidate first samples → samples.length ≠ 3) ∨
      c = .windowEnd 0 ∨
      (∃ k : Fin 12, c = .windowEnd k.succ ∧
        ∀ last, s.ci.inputs[k].qualifier = .window last → s.count < last ∨ s.ci.nextSample ≠ s.count + 100) ∨
      (c = .internalMark ∧ ∀ p, s.tb.prevMark = some p → s.count ≠ p + s.tb.interval + 5001) ∨
      (c = .gapEnd ∧ (s.sq.state ≠ .gap ∨ ∀ e, s.sq.gapEnd = some e → s.count < e))) :
    exec c s = .next (settle s) := by
  have unripe {q : Qualifier} (hq : ∀ first samples, q = .candidate first samples → samples.length ≠ 3) :
      q.ripe = false := by
    rw [Bool.eq_false_iff, ne_eq, ripe_iff]
    rintro ⟨first, samples, e, hl⟩
    exact hq first samples e hl
  obtain ⟨rfl, h⟩ | ⟨contacts, sync, rfl, h⟩ | ⟨rfl, h⟩ | ⟨k, rfl, h⟩ | rfl | ⟨k, rfl, h⟩ | ⟨rfl, h⟩ | ⟨rfl, h⟩ := h
  · exact exec_notDue (b := gridDue s) hr rfl (by simpa [gridDue] using h)
  · exact exec_notDue (b := contactSampleDue s) hr rfl (by simpa [contactSampleDue] using h)
  · exact exec_notDue (b := qualificationDue 0 s) hr rfl (unripe h)
  · exact exec_notDue (b := qualificationDue k.succ s) hr rfl (by rw [qualificationDue_input]; exact unripe h)
  · exact exec_notDue (b := windowEndDue 0 s) hr rfl rfl
  · refine exec_notDue (b := windowEndDue k.succ s) hr rfl ?_
    rw [Bool.eq_false_iff, ne_eq, windowEndDue_input]
    rintro ⟨last, e, hl, hn⟩
    obtain h | h := h last e
    · omega
    · exact h hn
  · refine exec_notDue (b := internalMarkDue s) hr rfl ?_
    rw [Bool.eq_false_iff, ne_eq, internalMarkDue_iff]
    rintro ⟨p, e, hc⟩
    exact h p e hc
  · refine exec_notDue (b := gapEndDue s) hr rfl ?_
    rw [Bool.eq_false_iff, ne_eq, gapEndDue_iff]
    rintro ⟨hg, e, he, hl⟩
    obtain h | h := h
    · exact h hg
    · exact absurd (h e he) (by omega)

/-- Settles O41: what the grid rows leave; then every row by its condition. -/
theorem gridInstantLeavesTheSettings : Obligations.GridInstantLeavesTheSettings := by
  refine ⟨fun c s t hc he => ?leaves, ?rows⟩
  case leaves =>
    obtain ⟨due, hd⟩ := exec_gridRow hc s
    obtain ⟨⟨n, left⟩, count, pending⟩ := gridRow_leaves hd he
    exact ⟨left.table, left.channels, left.ieMode, left.breaker, left.sources, left.bits, left.timeBase, left.lines,
      left.nextSample, count, pending⟩
  case rows =>
    intro s hr grid x u v judged judging
    refine ⟨fun p => ⟨?parting, ?forcing, ?closing⟩, ?charged, ?discrepancy, fun i => ?after, ?guard, ?limit, ?pulse,
      fun g number flags check => ⟨?settling, fun k => ?overload, ?lost⟩, fun c => exec_idleRow hr⟩
    case parting => exact onlyWhenDue_grid hr rfl (partingDue_iff hr p) fun h => h.1.2.1
    case forcing => exact onlyWhenDue_grid hr rfl (forcingDue_iff hr p) fun h => h.1.2.1
    case closing => exact onlyWhenDue_grid hr rfl (closingDue_iff hr p) fun h => h.1.2.1
    case charged => exact onlyWhenDue_grid hr rfl (chargeDue_iff hr) fun h => h.1.2.1
    case discrepancy => exact onlyWhenDue_grid hr rfl (discrepancyDue_iff hr) fun h => h.1.2.1
    case after => exact onlyWhenDue_grid hr rfl (afterDue_iff hr i) fun h => h.1.1.2.1
    case guard => exact onlyWhenDue_grid hr rfl (guardDue_iff hr) fun h => h.1.1.2.1
    case limit => exact onlyWhenDue_grid hr rfl (limitDue_iff s) fun h => h.1
    case pulse => exact onlyWhenDue_of_iff hr rfl (closingPulseDue_iff s) fun _ => exec_ppsEdge hr
    case settling => exact onlyWhenDue_of_iff hr rfl (settlingDue_iff g number flags check s) fun _ => act_released hr
    case overload => exact onlyWhenDue_of_iff hr rfl (overloadDue_iff g k number flags check s) fun _ => act_released hr
    case lost => exact onlyWhenDue_of_iff hr rfl (linkLossDue_iff g s) fun _ => rfl

end Sys2Proof.Machine

/-! # The end of a run, block by block (R48, R78, R118, R167 to R169) -/

namespace Sys2Proof.Machine

/-! ## The pending records (R48) -/

/-- BI(k+1) has no pending record any more. -/
def ContactInputs.dropInput (ci : ContactInputs) (k : Fin 12) : ContactInputs :=
  { ci with inputs := ci.inputs.set k { ci.inputs[k] with pendingEdge := none } }

theorem dropInput_none {ci : ContactInputs} {k : Fin 12} (h : ci.inputs[k].pendingEdge = none) : ci.dropInput k = ci := by
  have hk : ({ ci.inputs[k] with pendingEdge := none } : ContactInput) = ci.inputs[k] := by rw [← h]
  unfold ContactInputs.dropInput
  rw [hk]
  exact congrArg (fun v => { ci with inputs := v }) (Vector.set_getElem_self k.isLt)

theorem writePending_bare (t : Nat) (s : State) (k : Fin 12) :
    (writePending t s k).bare = { s.bare with ci := s.bare.ci.dropInput k } := by
  unfold writePending
  dsimp only
  split
  · rw [offerRun_bare]
    rfl
  · next h => exact congrArg (fun ci => { s.bare with ci := ci }) (dropInput_none (ci := s.ci) h).symm

theorem writePending_fold_bare (t : Nat) (l : List (Fin 12)) (s : State) :
    (l.foldl (writePending t) s).bare = { s.bare with ci := l.foldl ContactInputs.dropInput s.bare.ci } := by
  induction l generalizing s with
  | nil => rfl
  | cons k l ih => exact (ih (writePending t s k)).trans (by rw [writePending_bare]; rfl)

/-- The inputs of a list that have dropped their pending records, and the rest of the contact inputs. -/
theorem foldl_dropInput (l : List (Fin 12)) (ci : ContactInputs) :
    (∀ k : Fin 12, (l.foldl ContactInputs.dropInput ci).inputs[k] =
        if k ∈ l then { ci.inputs[k] with pendingEdge := none } else ci.inputs[k]) ∧
      (l.foldl ContactInputs.dropInput ci).sync = ci.sync ∧
      (l.foldl ContactInputs.dropInput ci).nextSample = ci.nextSample := by
  induction l generalizing ci with
  | nil => simp
  | cons j l ih =>
    obtain ⟨inputs, sync, next⟩ := ih (ci.dropInput j)
    refine ⟨fun k => ?_, sync, next⟩
    have dropped : (ci.dropInput j).inputs[k] =
        if k = j then { ci.inputs[k] with pendingEdge := none } else ci.inputs[k] := by
      by_cases h : k = j
      · subst h
        simp [ContactInputs.dropInput]
      · simp [ContactInputs.dropInput, h, Fin.val_inj, Ne.symm h]
    rw [List.foldl_cons, inputs k, dropped]
    by_cases hj : k = j <;> by_cases hl : k ∈ l <;> simp [hj, hl]

theorem ContactInputs.eq_of_parts {x y : ContactInputs} (h : x.inputs = y.inputs) (hs : x.sync = y.sync)
    (hn : x.nextSample = y.nextSample) : x = y := by
  cases x
  cases y
  simp_all

theorem foldl_dropInput_all (ci : ContactInputs) :
    (List.finRange 12).foldl ContactInputs.dropInput ci =
      { ci with inputs := ci.inputs.map fun x => { x with pendingEdge := none } } := by
  obtain ⟨inputs, sync, next⟩ := foldl_dropInput (List.finRange 12) ci
  have each : ((List.finRange 12).foldl ContactInputs.dropInput ci).inputs =
      ci.inputs.map fun x => { x with pendingEdge := none } := by
    ext1 k hk
    simpa using inputs ⟨k, hk⟩
  exact ContactInputs.eq_of_parts each sync next

theorem writePendingSync_none {t : Nat} {s : State} (h : s.ci.sync.pendingEdge = none) : writePendingSync t s = s := by
  simp only [writePendingSync, h]

theorem writePendingSync_some {t : Nat} {s : State} {e : PendingEdge} (h : s.ci.sync.pendingEdge = some e) :
    writePendingSync t s = offerRun t (.inputEdge 0 e.direction e.edgeTime e.noise e.glitches 0 e.injected)
      (putSync { s.ci.sync with pendingEdge := none } s) := by
  simp only [writePendingSync, h]
  rfl

theorem writePendingSync_bare (t : Nat) (s : State) :
    (writePendingSync t s).bare =
      { s.bare with ci := { s.bare.ci with sync := { s.bare.ci.sync with pendingEdge := none } } } := by
  cases h : s.ci.sync.pendingEdge with
  | none =>
    have hs : ({ s.ci.sync with pendingEdge := none } : SyncInput) = s.ci.sync := by rw [← h]
    rw [writePendingSync_none h]
    exact congrArg (fun x => { s.bare with ci := { s.ci with sync := x } }) hs.symm
  | some e =>
    rw [writePendingSync_some h, offerRun_bare]
    rfl

/-- R48: no pending record stands after a run end's step 3. -/
theorem writeAllPending_bare (t : Nat) (s : State) :
    (writeAllPending t s).bare = { s.bare with ci := s.bare.ci.unpending } := by
  unfold writeAllPending
  rw [writePending_fold_bare, foldl_dropInput_all, writePendingSync_bare]
  rfl

/-! ## Clip episodes (R78) -/

/-- Besides its records the operation changes the live records alone. -/
def Clipped (s t : State) : Prop := t.bare = { s.bare with ws := { s.bare.ws with live := t.bare.ws.live } }

theorem Clipped.trans {s t u : State} (h : Clipped s t) (k : Clipped t u) : Clipped s u := by
  unfold Clipped at *
  rw [k, h]

theorem closeClip_clipped (t : Nat) (s : State) (ch : Fin 8) : Clipped s (closeClip t s ch) := by
  unfold closeClip Clipped
  split
  · rw [offerRun_bare]
    rfl
  · rfl

theorem closeClips_clipped (t : Nat) (s : State) : Clipped s (closeClips t s) := by
  unfold closeClips
  induction List.finRange 8 generalizing s with
  | nil => exact rfl
  | cons ch l ih => exact (closeClip_clipped t s ch).trans (ih _)

/-- R57, R78: the clip episodes closed and the live records cleared. -/
theorem clearedWaves_bare (t : Nat) (s : State) :
    (clearSynthesis (closeClips t s)).bare =
      { s.bare with ws := { s.bare.ws with live := .replicate 8 .cleared, decay := 0, r := 0, dRef := 0 } } := by
  have cleared (u : State) : (clearSynthesis u).bare = clearSynthesis u.bare := rfl
  have clipped : (closeClips t s).bare = _ := closeClips_clipped t s
  rw [cleared, clipped]
  rfl

/-! ## The breaker (R118) -/

/-- R118: a moving pole becomes OPEN. -/
def Position.resolved (x : Position) : Position := if x.isMoving then .opened else x

theorem resolved_eq (x : Position) : x.resolved = if x = .closed ∨ x = .opened then x else .opened := by
  cases x <;> simp [Position.resolved, Position.isMoving]

theorem isMoving_iff (x : Position) : x.isMoving = true ↔ x ≠ .closed ∧ x ≠ .opened := by
  cases x <;> simp [Position.isMoving]

theorem put_get_self {α : Type} (x : PerPole α) (p : Pole) : x.put p (x.get p) = x := by
  cases p <;> rfl

theorem resolvePole_still {t : Nat} {s : State} {p : Pole} (h : (s.bs.poles.get p).isMoving = false) :
    resolvePole t s p = s := if_neg (Bool.eq_false_iff.1 h)

theorem resolvePole_moving {t : Nat} {s : State} {p : Pole} (h : (s.bs.poles.get p).isMoving = true) :
    resolvePole t s p = offerRun t (.breaker (.pole p) .resolved none) (putPole p .opened s) := if_pos h

theorem resolvePole_bare (t : Nat) (s : State) (p : Pole) :
    (resolvePole t s p).bare =
      { s.bare with bs := { s.bare.bs with poles := s.bare.bs.poles.put p (s.bare.bs.poles.get p).resolved } } := by
  obtain h | h := Bool.eq_false_or_eq_true (s.bs.poles.get p).isMoving
  · have hp : (s.bs.poles.get p).resolved = .opened := if_pos h
    rw [resolvePole_moving h, offerRun_bare]
    exact congrArg (fun x => { s.bare with bs := { s.bs with poles := s.bs.poles.put p x } }) hp.symm
  · have hp : (s.bs.poles.get p).resolved = s.bs.poles.get p := if_neg (Bool.eq_false_iff.1 h)
    rw [resolvePole_still h]
    exact congrArg (fun x => { s.bare with bs := { s.bs with poles := x } })
      ((congrArg (s.bs.poles.put p) hp).trans (put_get_self s.bs.poles p)).symm

theorem resolvePoles_bare (t : Nat) (s : State) :
    (poleOrder.foldl (resolvePole t) s).bare =
      { s.bare with bs := { s.bare.bs with poles := s.bare.bs.poles.map Position.resolved } } := by
  show (resolvePole t (resolvePole t (resolvePole t s .a) .b) .c).bare = _
  rw [resolvePole_bare, resolvePole_bare, resolvePole_bare]
  rfl

theorem stopBreaker_bare (t : Nat) (s : State) :
    (stopBreaker t s).bare =
      { s.bare with bs := { s.bare.bs with
          poles := s.bare.bs.poles.map Position.resolved
          spring := stopSpring s.bare.bs.spring, discrepancy := .idle, active := false } } := by
  have h := resolvePoles_bare t s
  calc (stopBreaker t s).bare
      = { (poleOrder.foldl (resolvePole t) s).bare with
          bs := { (poleOrder.foldl (resolvePole t) s).bare.bs with
            spring := stopSpring (poleOrder.foldl (resolvePole t) s).bare.bs.spring
            discrepancy := .idle, active := false } } := rfl
    _ = _ := by rw [h]

theorem stopSpring_eq (x : Spring) : stopSpring x = if x = .charged then .charged else .charging none := by
  cases x <;> simp [stopSpring]

/-! ## The steps before RUN_END and the whole run end (R167) -/

/-- R167, step 1: nothing is judged any more. -/
def stopJudging (s : State) : State := { s with sq := { s.sq with taken := none, guard := none, entrySample := false } }

theorem abandons_eq (o : RunOutcome) : o.abandons = decide (o = .halted ∨ o = .ampFault ∨ o = .limit) := by
  cases o <;> rfl

/-- R167, steps 1 to 5, block by block. -/
theorem closeAccounts_bare (o : RunOutcome) (t : Nat) (s : State) :
    (closeAccounts o t s).bare =
      { s.bare with
        sq := { s.sq with taken := none, guard := none, entrySample := false }
        asmt := (endVisit o.abandons t (stopJudging s)).asmt
        ci := s.ci.unpending
        ws := { s.ws with live := .replicate 8 .cleared, decay := 0, r := 0, dRef := 0 }
        bs := { s.bs with
          poles := s.bs.poles.map Position.resolved
          spring := stopSpring s.bs.spring, discrepancy := .idle, active := false } } := by
  have visit : (endVisit o.abandons t (stopJudging s)).bare = _ := endVisit_assessed o.abandons t (stopJudging s)
  show (stopBreaker t (clearSynthesis (closeClips t (writeAllPending t
    (endVisit o.abandons t (stopJudging s)))))).bare = _
  rw [stopBreaker_bare, clearedWaves_bare, writeAllPending_bare, visit]
  rfl

theorem goOn_shape (o : RunOutcome) (s : State) :
    ∃ state settings gapEnd,
      goOn o s = { s with sq := { s.sq with state := state, settings := settings, gapEnd := gapEnd } } := by
  unfold goOn
  split
  · split
    · split <;> exact ⟨_, _, _, rfl⟩
    · exact ⟨_, _, _, rfl⟩
    · exact ⟨_, _, _, rfl⟩
  · exact ⟨_, _, _, rfl⟩

theorem finishRun_bare (o : RunOutcome) (t : Nat) (s : State) :
    (finishRun o t s).bare =
      { s.bare with
        bo := (finishRun o t s).bo
        tb := { s.bare.tb with latch := none }
        sq := { s.bare.sq with lastOutcome := some o, current := none } } := by
  have h : (offerRun t (runEndBody o t s) s).bare = s.bare := offerRun_bare ..
  rw [← h]
  rfl

/-- A run end, block by block; the sequencer's state, its settings and the gap end are told by `goOn`. -/
theorem runEnd_bare (o : RunOutcome) (s : State) :
    ∃ state settings gapEnd,
      (runEnd o s).bare =
        { s.bare with
          sq := { s.sq with
            taken := none, guard := none, entrySample := false, lastOutcome := some o, current := none
            state := state, settings := settings, gapEnd := gapEnd }
          asmt := (endVisit o.abandons s.now (stopJudging s)).asmt
          ci := s.ci.unpending
          ws := { s.ws with live := .replicate 8 .cleared, decay := 0, r := 0, dRef := 0 }
          bs := { s.bs with
            poles := s.bs.poles.map Position.resolved
            spring := stopSpring s.bs.spring, discrepancy := .idle, active := false }
          bo := (finishRun o s.now (closeAccounts o s.now s)).bo
          tb := { s.tb with latch := none } } := by
  obtain ⟨state, settings, gapEnd, h⟩ := goOn_shape o (finishRun o s.now (closeAccounts o s.now s))
  refine ⟨state, settings, gapEnd, ?_⟩
  have finished := finishRun_bare o s.now (closeAccounts o s.now s)
  rw [closeAccounts_bare] at finished
  calc (runEnd o s).bare = (goOn o (finishRun o s.now (closeAccounts o s.now s))).bare := rfl
    _ = { (finishRun o s.now (closeAccounts o s.now s)).bare with
          sq := { (finishRun o s.now (closeAccounts o s.now s)).bare.sq with
            state := state, settings := settings, gapEnd := gapEnd } } := by rw [h]; rfl
    _ = _ := by rw [finished]; rfl

end Sys2Proof.Machine

/-! # The tallies at the end of a visit (R179, R180, R184) -/

namespace Sys2Proof.Machine

/-- How many items of this kind are still OPEN. -/
def openOf (kind : ItemKind) (l : List ItemRun) : Nat :=
  (l.filter fun y => y.decision = none && y.item.kind = kind).length

theorem openOf_append (kind : ItemKind) (l m : List ItemRun) : openOf kind (l ++ m) = openOf kind l + openOf kind m := by
  simp [openOf]

theorem openOf_decided (kind : ItemKind) {x : ItemRun} (h : x.decision ≠ none) : openOf kind [x] = 0 := by
  simp [openOf, h]

theorem openOf_open (kind : ItemKind) {x : ItemRun} (h : x.decision = none) :
    openOf kind [x] = if x.item.kind = kind then 1 else 0 := by
  by_cases hk : x.item.kind = kind <;> simp [openOf, h, hk]

theorem tally_pass (d : Decision) (a : Assessment) : (a.tally d).pass = a.pass + if d = .pass then 1 else 0 := by
  cases d <;> rfl

theorem tally_nonPass (d : Decision) (a : Assessment) :
    (a.tally d).nonPass = a.nonPass + if d = .pass then 0 else 1 := by
  cases d <;> rfl

theorem endDecision_eq_pass (cut : Bool) (kind : ItemKind) :
    endDecision cut kind = .pass ↔ cut = false ∧ kind = .forbid := by
  cases cut <;> cases kind <;> simp [endDecision]

section
variable {cut : Bool} {head k : Nat} {s : State} {v : Visit}

theorem endItem_visitNone (h : s.asmt.visit = none) : endItem cut head s k = s := by
  simp only [endItem, h]

theorem endItem_absent (hv : s.asmt.visit = some v) (h : v.items[k]? = none) : endItem cut head s k = s := by
  simp only [endItem, hv, h]

theorem endItem_decided {x : ItemRun} (hv : s.asmt.visit = some v) (hx : v.items[k]? = some x)
    (hd : x.decision ≠ none) : endItem cut head s k = s := by
  simp only [endItem, hv, hx, hd, if_false]

/-- R179, R180: an OPEN item takes the decision of the visit's end, and one tally moves. -/
theorem endItem_open {x : ItemRun} (hv : s.asmt.visit = some v) (hx : v.items[k]? = some x) (hd : x.decision = none) :
    (endItem cut head s k).asmt =
      ({ s.asmt with visit := some { v with
          items := v.items.set k { x with decision := some (endDecision cut x.item.kind), measured := none } } }).tally
        (endDecision cut x.item.kind) := by
  simp only [endItem, hv, hx, hd, decideItem, offerRun_asmt, if_true]

/-- One item at the visit's end: the later items stay, and the tallies count it if it was OPEN. -/
theorem endItem_tally (hv : s.asmt.visit = some v) :
    let t := endItem cut head s k
    let one (kind : ItemKind) := openOf kind v.items[k]?.toList
    (∃ items, t.asmt.visit = some { v with items := items } ∧ items.drop (k + 1) = v.items.drop (k + 1)) ∧
      t.asmt.pass = s.asmt.pass + (if cut then 0 else one .forbid) ∧
      t.asmt.nonPass = s.asmt.nonPass + one .expect + (if cut then one .forbid else 0) := by
  intro t one
  cases hx : v.items[k]? with
  | none =>
    have ht : t = s := endItem_absent hv hx
    exact ⟨⟨v.items, ht ▸ hv, rfl⟩, by simp [ht, one, hx, openOf]⟩
  | some x =>
    by_cases hd : x.decision = none
    · have ht := endItem_open (cut := cut) (head := head) hv hx hd
      refine ⟨⟨v.items.set k { x with decision := some (endDecision cut x.item.kind), measured := none }, ?_, ?_⟩, ?_, ?_⟩
      · rw [ht, tally_visit]
      · exact List.drop_set_of_lt (Nat.lt_succ_self k)
      · rw [ht, tally_pass]
        simp only [endDecision_eq_pass, one, hx, Option.toList_some, openOf_open _ hd]
        cases cut <;> simp
      · rw [ht, tally_nonPass]
        simp only [endDecision_eq_pass, one, hx, Option.toList_some, openOf_open _ hd]
        cases cut <;> cases x.item.kind <;> simp
    · have ht : t = s := endItem_decided hv hx hd
      exact ⟨⟨v.items, ht ▸ hv, rfl⟩, by simp [ht, one, hx, openOf_decided _ hd]⟩

end

theorem take_drop_succ {α : Type} (l : List α) (j n : Nat) :
    (l.drop j).take (n + 1) = l[j]?.toList ++ (l.drop (j + 1)).take n := by
  obtain h | h := Nat.lt_or_ge j l.length
  · rw [List.drop_eq_getElem_cons h, List.take_succ_cons, List.getElem?_eq_getElem h]
    rfl
  · rw [List.drop_eq_nil_of_le h, List.drop_eq_nil_of_le (Nat.le_succ_of_le h), List.getElem?_eq_none h]
    simp

/-- A run of items at the visit's end. -/
theorem endItems_tally (cut : Bool) (head n j : Nat) (s : State) (v : Visit) (hv : s.asmt.visit = some v) :
    let t := (List.range' j n).foldl (endItem cut head) s
    let these (kind : ItemKind) := openOf kind ((v.items.drop j).take n)
    t.asmt.pass = s.asmt.pass + (if cut then 0 else these .forbid) ∧
      t.asmt.nonPass = s.asmt.nonPass + these .expect + (if cut then these .forbid else 0) := by
  induction n generalizing j s v with
  | zero => simp [openOf]
  | succ n ih =>
    obtain ⟨⟨items, visit, rest⟩, pass, nonPass⟩ := endItem_tally (cut := cut) (head := head) (k := j) hv
    obtain ⟨passes, nonPasses⟩ := ih (j + 1) (endItem cut head s j) _ visit
    intro t these
    simp only [rest, pass, nonPass] at passes nonPasses
    simp only [t, these, List.range'_succ, List.foldl_cons, take_drop_succ, openOf_append]
    rw [passes, nonPasses]
    cases cut <;> simp <;> omega

/-- R179, R180, R184: the visit's end decides its OPEN items; a visit holds at most four. -/
theorem endVisit_tally (cut : Bool) (head : Nat) (s : State) (h : fourItems s.asmt) :
    (endVisit cut head s).asmt.pass = s.asmt.pass + (if cut then 0 else openItems .forbid s.asmt.visit) ∧
      (endVisit cut head s).asmt.nonPass =
        s.asmt.nonPass + openItems .expect s.asmt.visit + (if cut then openItems .forbid s.asmt.visit else 0) := by
  show ((List.range 4).foldl (endItem cut head) s).asmt.pass = _ ∧
    ((List.range 4).foldl (endItem cut head) s).asmt.nonPass = _
  cases hv : s.asmt.visit with
  | none =>
    have stays : (List.range 4).foldl (endItem cut head) s = s := by
      simp [List.range_succ, endItem_visitNone hv]
    simp [stays, openItems]
  | some v =>
    have all : (v.items.drop 0).take 4 = v.items := List.take_of_length_le (h v hv)
    have tallies := endItems_tally cut head 4 0 s v hv
    rw [all] at tallies
    rw [List.range_eq_range']
    exact tallies

end Sys2Proof.Machine

/-! # What a run end leaves (R127, R166 to R169, R180) -/

namespace Sys2Proof.Machine

/-! ## The blocks -/

section
variable {s u : State} (h : s.bare = u)
include h

theorem count_of_bare : s.count = u.count := h ▸ rfl
theorem tb_of_bare : s.tb = u.tb := h ▸ rfl
theorem ci_of_bare : s.ci = u.ci := h ▸ rfl
theorem ws_of_bare : s.ws = u.ws := h ▸ rfl
theorem al_of_bare : s.al = u.al := h ▸ rfl
theorem bs_of_bare : s.bs = u.bs := h ▸ rfl
theorem bo_of_bare : s.bo = u.bo := h ▸ rfl
theorem st_of_bare : s.st = u.st := h ▸ rfl
theorem sq_of_bare : s.sq = u.sq := h ▸ rfl
theorem asmt_of_bare : s.asmt = u.asmt := h ▸ rfl

end

section
variable (o : RunOutcome) (s : State)

theorem runEnd_sq :
    ∃ state settings gapEnd, (runEnd o s).sq = { s.sq with
      taken := none, guard := none, entrySample := false, lastOutcome := some o, current := none
      state := state, settings := settings, gapEnd := gapEnd } := by
  obtain ⟨state, settings, gapEnd, h⟩ := runEnd_bare o s
  exact ⟨state, settings, gapEnd, sq_of_bare h⟩

theorem runEnd_asmt : (runEnd o s).asmt = (endVisit o.abandons s.now (stopJudging s)).asmt := by
  obtain ⟨_, _, _, h⟩ := runEnd_bare o s
  have e := asmt_of_bare h
  exact e

theorem runEnd_ci : (runEnd o s).ci = s.ci.unpending := by
  obtain ⟨_, _, _, h⟩ := runEnd_bare o s
  exact ci_of_bare h

theorem runEnd_ws :
    (runEnd o s).ws = { s.ws with live := .replicate 8 .cleared, decay := 0, r := 0, dRef := 0 } := by
  obtain ⟨_, _, _, h⟩ := runEnd_bare o s
  exact ws_of_bare h

theorem runEnd_bs :
    (runEnd o s).bs = { s.bs with
      poles := s.bs.poles.map Position.resolved
      spring := stopSpring s.bs.spring, discrepancy := .idle, active := false } := by
  obtain ⟨_, _, _, h⟩ := runEnd_bare o s
  exact bs_of_bare h

theorem runEnd_tb : (runEnd o s).tb = { s.tb with latch := none } := by
  obtain ⟨_, _, _, h⟩ := runEnd_bare o s
  exact tb_of_bare h

theorem runEnd_pattern : (runEnd o s).bo.pattern = 0 := by
  obtain ⟨_, _, _, h⟩ := runEnd_bare o s
  exact congrArg BinaryOutputs.pattern (bo_of_bare h)

theorem runEnd_st : (runEnd o s).st = s.st := by
  obtain ⟨_, _, _, h⟩ := runEnd_bare o s
  have e := st_of_bare h
  exact e

theorem runEnd_al : (runEnd o s).al = s.al := by
  obtain ⟨_, _, _, h⟩ := runEnd_bare o s
  have e := al_of_bare h
  exact e

end

theorem unpending_input (ci : ContactInputs) (k : Fin 12) :
    ci.unpending.inputs[k] = { ci.inputs[k] with pendingEdge := none } := by
  simp [ContactInputs.unpending]

theorem map_resolved_get (x : PerPole Position) (p : Pole) :
    (x.map Position.resolved).get p = if x.get p = .closed ∨ x.get p = .opened then x.get p else .opened := by
  rw [← resolved_eq]
  cases p <;> rfl

theorem stopSpring_charged (x : Spring) : stopSpring x = .charged ↔ x = .charged := by
  cases x <;> simp [stopSpring]

theorem stopSpring_uncharged (x : Spring) (start : Nat) : stopSpring x ≠ .charging (some start) := by
  cases x <;> simp [stopSpring]

/-! ## The records and the notice -/

theorem offer_records (run time : Nat) (body : RecordBody) (s : State) :
    (offer run time body s).rs.records = (s.rs.offer run time body).records := by
  unfold offer judgeFill
  dsimp only
  split <;> rfl

/-- R191, R192: a RUN_END is always admitted, is the newest record and closes the window. -/
theorem offer_runEnd_eq (run time : Nat) (o : RunOutcome) (t v p n l : Nat) (rs : ReportStore) :
    rs.offer run time (.runEnd o t v p n l) =
      { wrapNumbers rs with
        records := (wrapNumbers rs).records ++ [⟨(wrapNumbers rs).nextSeq, run, time, .runEnd o t v p n l⟩]
        nextSeq := (wrapNumbers rs).nextSeq + 1, window := none } := rfl

theorem closeAccounts_sq (o : RunOutcome) (t : Nat) (s : State) :
    (closeAccounts o t s).sq = { s.sq with taken := none, guard := none, entrySample := false } :=
  sq_of_bare (closeAccounts_bare o t s)

theorem closeAccounts_asmt (o : RunOutcome) (s : State) : (closeAccounts o s.now s).asmt = (runEnd o s).asmt :=
  (asmt_of_bare (closeAccounts_bare o s.now s)).trans (runEnd_asmt o s).symm

/-- R168: the lost count that a RUN_END shows. -/
def lostCount (rs : ReportStore) : Nat :=
  match (wrapNumbers rs).window with
  | some w => w.lost
  | none => 0

theorem runEndBody_eq (o : RunOutcome) (t : Nat) (s : State) :
    runEndBody o t s = .runEnd o t s.sq.visited s.asmt.pass s.asmt.nonPass (lostCount s.rs) := rfl

/-- The RUN_END record of a run end. -/
theorem runEndBody_accounts (o : RunOutcome) (s : State) :
    runEndBody o s.now (closeAccounts o s.now s) =
      .runEnd o s.now s.sq.visited (runEnd o s).asmt.pass (runEnd o s).asmt.nonPass
        (lostCount (closeAccounts o s.now s).rs) := by
  rw [runEndBody_eq, closeAccounts_sq, closeAccounts_asmt]

theorem runEnd_eq (o : RunOutcome) (s : State) :
    runEnd o s = goOn o (finishRun o s.now (closeAccounts o s.now s)) := rfl

theorem goOn_finishRun_rs (o : RunOutcome) (t : Nat) (s : State) :
    (goOn o (finishRun o t s)).rs = (offer s.sq.runNumber t (runEndBody o t s) s).rs :=
  (goOn_spec o (finishRun o t s)).2.2.1

theorem closeAccounts_runNumber (o : RunOutcome) (t : Nat) (s : State) :
    (closeAccounts o t s).sq.runNumber = s.sq.runNumber := by
  rw [closeAccounts_sq]

/-- R167, step 6: the store after a run end is the offer of its RUN_END record. -/
theorem runEnd_records (o : RunOutcome) (s : State) :
    (runEnd o s).rs.records = ((closeAccounts o s.now s).rs.offer s.sq.runNumber s.now
        (runEndBody o s.now (closeAccounts o s.now s))).records ∧
      (runEnd o s).rs.window = none := by
  rw [runEnd_eq, goOn_finishRun_rs, closeAccounts_runNumber, offer_records]
  exact ⟨rfl, (offer_store _ _ _ _).2⟩

/-- R167, step 9: the notice and its snapshot. -/
theorem finishRun_notice (o : RunOutcome) (t : Nat) (s : State) :
    ∃ x, (finishRun o t s).cl.notice = some ⟨.runEnd, x⟩ ∧ x.lastOutcome = some o ∧ x.current = none ∧
      x.runNumber = s.sq.runNumber ∧ x.fill = (finishRun o t s).rs.records.length :=
  ⟨_, rfl, rfl, ite_self _, congrArg Sequencer.runNumber (offerRun_sq t (runEndBody o t s) s), rfl⟩

theorem goOn_cl (o : RunOutcome) (s : State) : (goOn o s).cl = s.cl := by
  obtain ⟨_, _, _, h⟩ := goOn_shape o s
  rw [h]

theorem runEnd_notice (o : RunOutcome) (s : State) :
    ∃ x, (runEnd o s).cl.notice = some ⟨.runEnd, x⟩ ∧ x.lastOutcome = some o ∧ x.current = none ∧
      x.runNumber = s.sq.runNumber ∧ x.fill = (runEnd o s).rs.records.length := by
  have told := finishRun_notice o s.now (closeAccounts o s.now s)
  rw [closeAccounts_runNumber] at told
  rw [runEnd_eq, goOn_cl, (goOn_spec o _).2.2.1]
  exact told

/-! ## Where the sequencer goes (R169) -/

theorem goOn_repeated {r : RunSettings} {s : State} (hs : s.sq.settings = some r) (hm : r.mode = .repeated)
    (hr : 0 < s.sq.remainder) :
    goOn .complete s = { s with sq := { s.sq with state := .gap, gapEnd := some (s.count + 10 * r.gap) } } := by
  simp only [goOn, hs, hm, hr, if_true]

theorem goOn_triggered {r : RunSettings} {s : State} (hs : s.sq.settings = some r) (hm : r.mode = .triggered) :
    goOn .complete s = { s with sq := { s.sq with state := .armed } } := by
  simp only [goOn, hs, hm]

theorem goOn_idle {o : RunOutcome} {r : RunSettings} {s : State} (hs : s.sq.settings = some r)
    (h : o ≠ .complete ∨ r.mode = .single ∨ (r.mode = .repeated ∧ s.sq.remainder = 0)) : goOn o s = toIdle s := by
  obtain h | hm | ⟨hm, h0⟩ := h
  · unfold goOn
    split
    · exact absurd rfl h
    · rfl
  · cases o <;> simp only [goOn, hs, hm]
  · cases o <;> simp [goOn, hs, hm, h0]

theorem finishRun_count (o : RunOutcome) (t : Nat) (s : State) : (finishRun o t s).count = s.count := by
  have h := count_of_bare (finishRun_bare o t s)
  exact h

theorem closeAccounts_count (o : RunOutcome) (t : Nat) (s : State) : (closeAccounts o t s).count = s.count := by
  have h := count_of_bare (closeAccounts_bare o t s)
  exact h

theorem finishRun_sq (o : RunOutcome) (t : Nat) (s : State) :
    (finishRun o t s).sq = { s.sq with lastOutcome := some o, current := none } :=
  sq_of_bare (finishRun_bare o t s)

/-- R169, by the outcome, the mode and the remainder. -/
theorem goOn_cases {o : RunOutcome} {r : RunSettings} {s : State} (hs : s.sq.settings = some r) :
    (o = .complete → r.mode = .repeated → 0 < s.sq.remainder →
      (goOn o s).sq.state = .gap ∧ (goOn o s).sq.gapEnd = some (s.count + 10 * r.gap)) ∧
    (o = .complete → r.mode = .triggered → (goOn o s).sq.state = .armed ∧ (goOn o s).sq.settings = some r) ∧
    (o ≠ .complete ∨ r.mode = .single ∨ (r.mode = .repeated ∧ s.sq.remainder = 0) →
      (goOn o s).sq.state = .idle ∧ (goOn o s).sq.settings = none) := by
  refine ⟨?gap, ?armed, fun h => ?idle⟩
  case gap =>
    rintro rfl hm hr
    rw [goOn_repeated hs hm hr]
    exact ⟨rfl, rfl⟩
  case armed =>
    rintro rfl hm
    rw [goOn_triggered hs hm]
    exact ⟨rfl, hs⟩
  case idle =>
    rw [goOn_idle hs h]
    exact ⟨rfl, rfl⟩

theorem runEnd_goesOn {o : RunOutcome} {r : RunSettings} {s : State} (hs : s.sq.settings = some r) :
    (o = .complete → r.mode = .repeated → 0 < s.sq.remainder →
      (runEnd o s).sq.state = .gap ∧ (runEnd o s).sq.gapEnd = some (s.count + 10 * r.gap)) ∧
    (o = .complete → r.mode = .triggered → (runEnd o s).sq.state = .armed ∧ (runEnd o s).sq.settings = some r) ∧
    (o ≠ .complete ∨ r.mode = .single ∨ (r.mode = .repeated ∧ s.sq.remainder = 0) →
      (runEnd o s).sq.state = .idle ∧ (runEnd o s).sq.settings = none) := by
  have settings : (finishRun o s.now (closeAccounts o s.now s)).sq.settings = some r := by
    rw [finishRun_sq, closeAccounts_sq]
    exact hs
  have goes := goOn_cases (o := o) settings
  rw [finishRun_count, closeAccounts_count, finishRun_sq, closeAccounts_sq, ← runEnd_eq] at goes
  exact goes

/-! ## The statement -/

theorem stopBreaker_eq (t : Nat) (s : State) :
    let resolved := resolvePole t (resolvePole t (resolvePole t s .a) .b) .c
    stopBreaker t s = { resolved with bs := { resolved.bs with
      spring := if resolved.bs.spring = .charged then .charged else .charging none
      discrepancy := .idle, active := false } } := by
  intro resolved
  rw [← stopSpring_eq]
  rfl

/-- `abandons_eq` with the disjunction on the Booleans. -/
theorem abandons_eq_or (o : RunOutcome) : o.abandons = (o = .halted || o = .ampFault || o = .limit : Bool) := by
  cases o <;> rfl

/-- Settles O52: the steps before RUN_END, then the run end block by block. -/
theorem runEndClosesTheRun : Obligations.RunEndClosesTheRun := by
  refine ⟨fun o t s => ?steps, fun t s => ⟨writePendingSync_none, fun e => writePendingSync_some⟩,
    fun t p s => ⟨fun h => ?still, fun hc ho => ?moving⟩, fun o s => ?blocks⟩
  case steps =>
    intro cut visit edges clips waves resolved
    have hc : o.abandons = cut := abandons_eq_or o
    have stops : closeAccounts o t s =
        stopBreaker t (clearSynthesis (closeClips t (writeAllPending t (endVisit o.abandons t (stopJudging s))))) := rfl
    rw [stops, hc, show endVisit cut t (stopJudging s) = visit from rfl]
    clear_value visit
    rw [show writeAllPending t visit = edges from rfl]
    clear_value edges
    rw [show closeClips t edges = clips from rfl]
    clear_value clips
    rw [show clearSynthesis clips = waves from rfl]
    clear_value waves
    exact stopBreaker_eq t waves
  case still =>
    refine resolvePole_still (Bool.eq_false_iff.2 fun hm => ?_)
    obtain ⟨hc, ho⟩ := (isMoving_iff _).1 hm
    exact h.elim hc ho
  case moving => exact resolvePole_moving ((isMoving_iff _).2 ⟨hc, ho⟩)
  case blocks =>
    intro t accounts cut expects forbids
    obtain ⟨state, settings, gapEnd, sq⟩ := runEnd_sq o s
    obtain ⟨records, window⟩ := runEnd_records o s
    have bs := runEnd_bs o s
    have ws := runEnd_ws o s
    have ci := runEnd_ci o s
    have body := runEndBody_accounts o s
    refine ⟨runEnd_inRun o s, by rw [sq], by rw [sq], by rw [sq], by rw [sq], by rw [sq], by rw [sq], by rw [sq],
      by rw [sq], by rw [sq], by rw [runEnd_asmt]; rfl, runEnd_tb o s, fun h => ?tallies,
      fun k => by rw [ci]; exact unpending_input s.ci k, by rw [ci]; rfl, by rw [ci]; rfl, by rw [bs], by rw [bs],
      by rw [bs], fun p => by rw [bs]; exact map_resolved_get _ p, by rw [bs]; exact stopSpring_charged _,
      fun a => by rw [bs]; exact stopSpring_uncharged _ a, by rw [ws], by rw [ws], by rw [ws], by rw [ws],
      runEnd_pattern o s, runEnd_st o s, runEnd_al o s, ?newest, ?store, window, runEnd_notice o s,
      fun r hr => runEnd_goesOn hr⟩
    case tallies =>
      rw [runEnd_asmt, abandons_eq]
      have visit := endVisit_tally (decide cut) s.now (stopJudging s) h
      simp only [decide_eq_true_eq] at visit
      exact visit
    case newest =>
      rw [body, offer_runEnd_eq, show closeAccounts o s.now s = accounts from rfl] at records
      refine ⟨(wrapNumbers accounts.rs).nextSeq, ?_⟩
      rw [records, List.getLast?_concat]
      clear_value accounts
      rfl
    case store =>
      rw [body, show closeAccounts o s.now s = accounts from rfl, show runEnd o s = t from rfl] at records
      clear_value accounts t
      exact records

end Sys2Proof.Machine

/-! # What a run start leaves: the rules (R62 to R65, R152 to R155, R188 to R193) -/

namespace Sys2Proof.Machine

/-! ## The store -/

theorem offer_nextNumber (run time : Nat) (body : RecordBody) (s : State) :
    (offer run time body s).rs.nextSeq = (s.rs.offer run time body).nextSeq := by
  unfold offer judgeFill
  dsimp only
  split <;> rfl

theorem wrapNumbers_below {rs : ReportStore} (h : rs.nextSeq ≤ topNumber) : wrapNumbers rs = rs := if_pos h

/-- R153, R191: a RUN_START for which the store has room, its number below the top. -/
theorem offer_runStart_eq {run time : Nat} {m : RunMode} {g : RunTrigger} {n : Fin 24} {f : Nat} {c : Int}
    {sec : Option Nat} {i : Bool} {rs : ReportStore} (hn : rs.nextSeq ≤ topNumber) (hl : rs.records.length ≤ 638) :
    rs.offer run time (.runStart m g n f c sec i) =
      { rs with
        records := rs.records ++ [⟨rs.nextSeq, run, time, .runStart m g n f c sec i⟩]
        nextSeq := rs.nextSeq + 1, window := some ⟨run, 0⟩ } := by
  simp [ReportStore.offer, wrapNumbers_below hn, openWindow, closeWindow, admits, hl]

section
variable {run time : Nat} {rs : ReportStore} {n : Fin 24} {v t : Nat} {from' : Option (Fin 24)}
  {i : Option (Fin 6)} {x c : Option Nat} {w : RunWindow}

/-- R155, R192: a STATE_ENTRY in an open window with room. -/
theorem offer_stateEntry (hn : rs.nextSeq ≤ topNumber) (hw : rs.window = some w) (hl : rs.records.length ≤ 638) :
    rs.offer run time (.stateEntry n v t from' i x c) =
      { rs with
        records := rs.records ++ [⟨rs.nextSeq, run, time, .stateEntry n v t from' i x c⟩]
        nextSeq := rs.nextSeq + 1 } := by
  simp [ReportStore.offer, wrapNumbers_below hn, openWindow, closeWindow, admits, hl, hw]

/-- R192, R193: a STATE_ENTRY in an open window without room is lost and counted. -/
theorem offer_stateEntry_lost (hn : rs.nextSeq ≤ topNumber) (hw : rs.window = some w) (hl : 638 < rs.records.length) :
    rs.offer run time (.stateEntry n v t from' i x c) =
      { rs with nextSeq := rs.nextSeq + 1, window := some { w with lost := min topNumber (w.lost + 1) } } := by
  simp [ReportStore.offer, wrapNumbers_below hn, openWindow, countLost, admits, hl, hw]

end

/-! ## The live record of a channel -/

theorem loadRecord_residual {ieMode : IeMode} {cRun : Int} {r : Word} {ch : Fin 8} {p : ChannelPart} (hc : ch = 7)
    (h : ieMode = .residual) : loadRecord ieMode cRun r ch p .cleared = .cleared := by
  subst hc h
  rfl

theorem isResidual_eq_false {ieMode : IeMode} {ch : Fin 8} (h : ch ≠ 7 ∨ ieMode = .independent) :
    isResidual ieMode ch = false := by
  obtain h | h := h
  · simp [isResidual, h]
  · simp [isResidual, h]

theorem isCurrent_eq_false {ch : Fin 8} : isCurrent ch = false ↔ ch.val < 4 := by
  simp [isCurrent]

/-- R65, from a cleared record. -/
theorem loadDc_cleared (ch : Fin 8) (p : ChannelPart) (ac0 : Int) :
    loadDc ch p ac0 0 0 = if ch.val < 4 ∨ p.dcMode = .noDc ∨ p.dcMode = .holdDc then 0 else -ac0 * 65536 := by
  by_cases hv : ch.val < 4
  · simp [loadDc, isCurrent_eq_false.2 hv, hv]
  · have hc : isCurrent ch = true := Bool.not_eq_false _ ▸ mt isCurrent_eq_false.1 hv
    cases hd : p.dcMode <;> simp [loadDc, hc, hd, hv]

/-- R63, at the run start. -/
theorem loadPhase_cleared (p : ChannelPart) :
    loadPhase 0 p 0 = if p.phaseMode = .keep then 0 else anglePhase p.angle := by
  cases hp : p.phaseMode <;> simp [loadPhase, hp]

/-- R62 to R66: a record of its own, loaded from a cleared one at the run start. -/
theorem loadRecord_cleared {ieMode : IeMode} {cRun : Int} {ch : Fin 8} {p : ChannelPart}
    (h : ch ≠ 7 ∨ ieMode = .independent) :
    let x := loadRecord ieMode cRun 0 ch p .cleared
    x.theta = (if p.phaseMode = .keep then 0 else anglePhase p.angle) ∧ x.dTheta = increment p.frequency cRun ∧
      x.aFix = (p.amplitude : Int) * 65536 ∧ x.sPrev = 0 ∧ x.clip = false ∧
      x.d = (if ch.val < 4 ∨ p.dcMode = .noDc ∨ p.dcMode = .holdDc then 0
        else -sineCode p.amplitude x.theta * 65536) := by
  intro x
  have loaded : x = _ := if_neg (Bool.eq_false_iff.1 (isResidual_eq_false h))
  rw [loaded]
  exact ⟨loadPhase_cleared p, rfl, rfl, rfl, rfl, loadDc_cleared ch p _⟩

/-! ## A first entry (R154) -/

theorem endVisit_visitNone {cut : Bool} {head : Nat} {s : State} (h : s.asmt.visit = none) : endVisit cut head s = s := by
  have stays : (List.range 4).foldl (endItem cut head) s = s := by simp [List.range_succ, endItem_visitNone h]
  have none_again : ({ s.asmt with visit := none } : Assessment) = s.asmt := by rw [← h]
  unfold endVisit
  rw [stays]
  exact congrArg (fun a => { s with asmt := a }) none_again

/-- R154, steps 3 to 6, of an entry where no visit ends: what stands when the STATE_ENTRY record is offered. -/
def loadState (n : Fin 24) (e : Entry) (s : State) : State :=
  countVisit n (loadPattern e.pattern (loadEntry e (decrementBy (.entry n) (loadCounters e
    { s with sq := { s.sq with current := some n, taken := none, state := .running } }))))

@[simp] theorem loadState_rs (n : Fin 24) (e : Entry) (s : State) : (loadState n e s).rs = s.rs := rfl

theorem enterState_first {n : Fin 24} {t : Nat} {e : Entry} {s : State} (he : s.st.entries[n] = some e)
    (hv : s.asmt.visit = none) :
    let loaded := loadState n e s
    enterState n t s = setGuard e t (openVisit n loaded.sq.visits[n] t e.items
      (offerRun t (stateEntryBody n loaded.sq.visits[n] t none s.sq.taken) loaded)) := by
  unfold enterState
  split
  · next h => cases he.symm.trans h
  · next e' h =>
    cases he.symm.trans h
    rw [endVisit_visitNone hv, hv]
    rfl

section
variable {n : Fin 24} {t : Nat} {e : Entry} {s : State} (he : s.st.entries[n] = some e) (hv : s.asmt.visit = none)
include he hv

theorem enterState_first_ws : (enterState n t s).ws = (loadEntry e s).ws := by
  rw [enterState_first he hv]
  simp [loadState, loadEntry, State.cRun]

theorem enterState_first_bo : (enterState n t s).bo = (loadPattern e.pattern s).bo := by
  rw [enterState_first he hv]
  simp [loadState, loadPattern, refreshOutputs]

theorem enterState_first_asmt :
    (enterState n t s).asmt = { s.asmt with
      visit := some ⟨n, min 65535 (s.sq.visits[n] + 1), t, e.items.map fun x => ⟨x, none, none⟩⟩ } := by
  rw [enterState_first he hv]
  simp [loadState, openVisit, countVisit, loadCounters, decrementBy]

theorem enterState_first_sq :
    (enterState n t s).sq = { s.sq with
      state := .running, current := some n, taken := none
      counters := .ofFn fun c =>
        if s.st.sources[c] = .entry n then (e.loads[c]).getD s.sq.counters[c] - 1 else (e.loads[c]).getD s.sq.counters[c]
      visits := s.sq.visits.set n (min 65535 (s.sq.visits[n] + 1)), visited := s.sq.visited + 1
      guard := if 0 < e.guard then some ⟨t + e.guard, none⟩ else none, entrySample := true } := by
  rw [enterState_first he hv]
  simp [loadState, setGuard, countVisit, loadCounters, decrementBy]

theorem enterState_first_rs :
    (enterState n t s).rs = (offer s.sq.runNumber t
      (stateEntryBody n (min 65535 (s.sq.visits[n] + 1)) t none s.sq.taken) (loadState n e s)).rs := by
  rw [enterState_first he hv]
  simp [loadState, offerRun, countVisit, loadCounters, decrementBy]

end

/-! ## The run start (R152) -/

theorem newRun_eq (r : RunSettings) (s : State) :
    newRun r s = { s with
      sq := { s.sq with
        remainder := if r.mode = .repeated then s.sq.remainder - 1 else s.sq.remainder
        runNumber := if s.sq.runNumber = 65535 then 1 else s.sq.runNumber + 1
        current := none, taken := none, guard := none, visits := .replicate 24 0, visited := 0, marks := 0
        counters := .replicate 4 0, gapEnd := none, entrySample := false }
      asmt := .reset } := by
  unfold newRun
  cases r.mode <;> rfl

/-- R30, R151: the correction that the run latches. -/
def runCorrection (s : State) : Int := if s.sq.resultHeld then s.tb.c else s.tb.pendingC.getD s.tb.c

/-- R152, steps 1 to 4. -/
def startedRun (r : RunSettings) (t0 : Nat) (s : State) : State := startBlocks r (latchRun t0 (newRun r s))

/-- R152: the run is in progress, no result held. -/
def beginRun (s : State) : State := { s with sq := { s.sq with state := .running, resultHeld := false } }

/-- The run start up to its first entry. -/
def readyRun (r : RunSettings) (t0 : Nat) (internal : Bool) (s : State) : State :=
  let started := startedRun r t0 s
  beginRun (offer started.sq.runNumber 0 (runStartBody r internal started) started)

section
variable (r : RunSettings) (t0 : Nat) (internal : Bool) (s : State)

@[simp] theorem startedRun_count : (startedRun r t0 s).count = s.count := rfl
@[simp] theorem startedRun_tb : (startedRun r t0 s).tb = s.tb.latchAt t0 s.sq.resultHeld := rfl
@[simp] theorem startedRun_ws :
    (startedRun r t0 s).ws = { s.ws with
      live := .replicate 8 .cleared, decay := 0, r := 0, dRef := increment r.frequency (runCorrection s) } := rfl
@[simp] theorem startedRun_al : (startedRun r t0 s).al = ⟨s.al.v.clearOverload, s.al.i.clearOverload⟩ := rfl
@[simp] theorem startedRun_st : (startedRun r t0 s).st = s.st := rfl
@[simp] theorem startedRun_sq : (startedRun r t0 s).sq = (newRun r s).sq := rfl
@[simp] theorem startedRun_asmt : (startedRun r t0 s).asmt = .reset := rfl
@[simp] theorem startedRun_rs : (startedRun r t0 s).rs = s.rs := rfl
@[simp] theorem startedRun_bits : (startedRun r t0 s).bo.bits = s.bo.bits := rfl
@[simp] theorem startedRun_sources : (startedRun r t0 s).bo.sources = s.bo.sources := rfl
@[simp] theorem startedRun_bs :
    (startedRun r t0 s).bs = { s.bs with
      poles := s.bs.settings.initialClosed.map initialPosition
      spring := if s.bs.settings.initialCharged then .charged else .charging (some 0)
      discrepancy := .idle, active := true } := rfl

@[simp] theorem readyRun_count : (readyRun r t0 internal s).count = s.count := by simp [readyRun, beginRun]
@[simp] theorem readyRun_tb : (readyRun r t0 internal s).tb = (startedRun r t0 s).tb := by simp [readyRun, beginRun]
@[simp] theorem readyRun_ws : (readyRun r t0 internal s).ws = (startedRun r t0 s).ws := by simp [readyRun, beginRun]
@[simp] theorem readyRun_al : (readyRun r t0 internal s).al = (startedRun r t0 s).al := by simp [readyRun, beginRun]
@[simp] theorem readyRun_bs : (readyRun r t0 internal s).bs = (startedRun r t0 s).bs := by simp [readyRun, beginRun]
@[simp] theorem readyRun_bo : (readyRun r t0 internal s).bo = (startedRun r t0 s).bo := by simp [readyRun, beginRun]
@[simp] theorem readyRun_st : (readyRun r t0 internal s).st = s.st := by simp [readyRun, beginRun]
@[simp] theorem readyRun_asmt : (readyRun r t0 internal s).asmt = .reset := by simp [readyRun, beginRun]
@[simp] theorem readyRun_sq :
    (readyRun r t0 internal s).sq = { (newRun r s).sq with state := .running, resultHeld := false } := by
  simp [readyRun, beginRun]

theorem readyRun_rs : (readyRun r t0 internal s).rs =
    (offer (newRun r s).sq.runNumber 0 (runStartBody r internal (startedRun r t0 s)) (startedRun r t0 s)).rs := rfl

@[simp] theorem readyRun_cRun : (readyRun r t0 internal s).cRun = runCorrection s := by
  simp [State.cRun, TimeBase.latchAt, runCorrection]

end

theorem elapsedCount_eq (t0 x : Nat) (taken : Prop) [Decidable taken] :
    elapsedCount t0 x (decide taken) = (x - t0 + 499) / 500 + (if (x - t0) % 500 = 0 ∧ taken then 1 else 0) := by
  simp [elapsedCount]

theorem startRun_eq {r : RunSettings} (t0 : Nat) (internal : Bool) {s : State} (hs : s.sq.settings = some r) :
    startRun t0 internal s =
      runElapsed ((s.count - t0 + 499) / 500 + (if (s.count - t0) % 500 = 0 ∧ s.ws.lastGrid = some s.count then 1 else 0))
        t0 (enterState r.first 0 (readyRun r t0 internal s)) := by
  have starts : startRun t0 internal s =
      let t := enterState r.first 0 (readyRun r t0 internal s)
      runElapsed (elapsedCount t0 t.count (t.ws.lastGrid = some t.count)) t0 t := by
    simp only [startRun, hs]
    rfl
  simp only [starts, elapsedCount_eq, enterState_count, enterState_lastGrid, readyRun_count, readyRun_ws, startedRun_ws]

/-! ## The elapsed samples (R55) -/

/-- R55: the grid goes on at the first instant of the run's grid after the run end. -/
theorem gridAfter_spec {count x : Nat} (h : count ≤ x) :
    ∃ k, gridAfter count x = count + 500 * (k + 1) ∧ count + 500 * k ≤ x ∧ x < count + 500 * (k + 1) :=
  ⟨(x - count) / 500, rfl, by omega, by omega⟩

theorem runElapsed_inRun {count n : Nat} {s : State} (h : (runSample count s).1.inRun = true) :
    runElapsed (n + 1) count s = runElapsed n (count + 500) (runSample count s).1 := by
  simp only [runElapsed, h, if_true]

theorem runElapsed_ended {count n : Nat} {s : State} (h : (runSample count s).1.inRun = false) :
    runElapsed (n + 1) count s =
      { (runSample count s).1 with ws := { (runSample count s).1.ws with
          nextGrid := gridAfter count (runSample count s).1.count } } := by
  simp [runElapsed, h]

end Sys2Proof.Machine

/-! # A run start and its first entry (O53) -/

namespace Sys2Proof.Machine

/-! ## The two records (R153, R155) -/

section
variable {r : RunSettings} {s : State} (t0 : Nat) (internal : Bool) (hn : s.rs.nextSeq < topNumber)
  (hl : s.rs.records.length ≤ 638)
include hn hl

theorem readyRun_records :
    let run := (newRun r s).sq.runNumber
    let rs := (readyRun r t0 internal s).rs
    rs.records = s.rs.records ++ [⟨s.rs.nextSeq, run, 0, runStartBody r internal (startedRun r t0 s)⟩] ∧
      rs.nextSeq = s.rs.nextSeq + 1 ∧ rs.window = some ⟨run, 0⟩ := by
  intro run rs
  have told : s.rs.offer run 0 (runStartBody r internal (startedRun r t0 s)) = _ := offer_runStart_eq hn.le hl
  simp only [rs, readyRun_rs, offer_records, offer_nextNumber, (offer_store _ _ _ _).2, startedRun_rs]
  rw [told]
  exact ⟨rfl, rfl, rfl⟩

variable {e : Entry} (he : s.st.entries[r.first] = some e)
include he

theorem firstEntry_records :
    let run := (newRun r s).sq.runNumber
    let first : Record := ⟨s.rs.nextSeq, run, 0, runStartBody r internal (startedRun r t0 s)⟩
    let second : Record := ⟨s.rs.nextSeq + 1, run, 0, .stateEntry r.first 1 0 none none none none⟩
    let rs := (enterState r.first 0 (readyRun r t0 internal s)).rs
    (s.rs.records.length ≤ 637 → rs.records = s.rs.records ++ [first, second] ∧ rs.window = some ⟨run, 0⟩) ∧
    (s.rs.records.length = 638 → rs.records = s.rs.records ++ [first] ∧ rs.window = some ⟨run, 1⟩) := by
  intro run first second rs
  obtain ⟨records, number, window⟩ := readyRun_records (r := r) t0 internal hn hl
  have ready : (readyRun r t0 internal s).st.entries[r.first] = some e := by rw [readyRun_st, he]
  have body : stateEntryBody r.first (min 65535 ((readyRun r t0 internal s).sq.visits[r.first] + 1)) 0 none
      (readyRun r t0 internal s).sq.taken = .stateEntry r.first 1 0 none none none none := by
    simp [newRun_eq, stateEntryBody]
  have offered := enterState_first_rs (t := 0) ready (by rw [readyRun_asmt]; rfl)
  rw [body] at offered
  have length : (readyRun r t0 internal s).rs.records.length = s.rs.records.length + 1 := by
    rw [records, List.length_append, List.length_singleton]
  have below : (readyRun r t0 internal s).rs.nextSeq ≤ topNumber := number.trans_le hn
  simp only [rs, offered, offer_records, (offer_store _ _ _ _).2, loadState_rs, readyRun_sq]
  constructor
  · intro h
    rw [offer_stateEntry below window (by omega), records, number]
    exact ⟨List.append_assoc _ _ _, window⟩
  · intro h
    rw [offer_stateEntry_lost below window (by omega), records]
    exact ⟨rfl, rfl⟩

end

/-! ## The blocks of the first entry -/

section
variable {r : RunSettings} {s : State} {e : Entry} (t0 : Nat) (internal : Bool) (he : s.st.entries[r.first] = some e)
include he

theorem readyRun_entry : (readyRun r t0 internal s).st.entries[r.first] = some e := by rw [readyRun_st, he]

omit he in
theorem readyRun_visit : (readyRun r t0 internal s).asmt.visit = none := by
  rw [readyRun_asmt]
  rfl

theorem firstEntry_asmt :
    (enterState r.first 0 (readyRun r t0 internal s)).asmt =
      ⟨some ⟨r.first, 1, 0, e.items.map fun x => ⟨x, none, none⟩⟩, 0, 0⟩ := by
  rw [enterState_first_asmt (readyRun_entry t0 internal he) (readyRun_visit t0 internal)]
  simp [newRun_eq, Assessment.reset]

theorem firstEntry_sq :
    (enterState r.first 0 (readyRun r t0 internal s)).sq = { (newRun r s).sq with
      state := .running, resultHeld := false, current := some r.first, taken := none
      counters := .ofFn fun c =>
        if s.st.sources[c] = .entry r.first then (e.loads[c]).getD 0 - 1 else (e.loads[c]).getD 0
      visits := (Vector.replicate 24 0).set r.first 1, visited := 1
      guard := if 0 < e.guard then some ⟨e.guard, none⟩ else none, entrySample := true } := by
  rw [enterState_first_sq (readyRun_entry t0 internal he) (readyRun_visit t0 internal)]
  simp [newRun_eq]

theorem firstEntry_ws :
    (enterState r.first 0 (readyRun r t0 internal s)).ws = { s.ws with
      live := .ofFn fun ch => loadRecord s.ws.ieMode (runCorrection s) 0 ch e.channels[ch] .cleared
      decay := e.decay, r := 0, dRef := increment r.frequency (runCorrection s) } := by
  rw [enterState_first_ws (readyRun_entry t0 internal he) (readyRun_visit t0 internal)]
  simp [loadEntry]

theorem firstEntry_bo :
    (enterState r.first 0 (readyRun r t0 internal s)).bo = { s.bo with
      pattern := e.pattern
      outputs := .ofFn fun k => sourceValue (startedRun r t0 s).bs.poles (startedRun r t0 s).bs.spring e.pattern true
        s.bo.bits[k] s.bo.sources[k] } := by
  rw [enterState_first_bo (readyRun_entry t0 internal he) (readyRun_visit t0 internal)]
  simp [loadPattern, refreshOutputs]

end

/-- Settles O53: the run start up to the first entry, the first entry from cleared records, and the elapsed samples. -/
theorem runStartEntersTheFirstState : Obligations.RunStartEntersTheFirstState := by
  refine ⟨fun r internal t0 s hs _ => ?start, fun r e internal t0 s hs he _ hl hn => ?entry,
    fun count n s => ⟨rfl, runElapsed_inRun, fun ended later => ?ended⟩⟩
  case start =>
    intro c cRun run position poles spring fresh d elapsed started told ready
    have same : readyRun r t0 internal s = ready := by
      unfold readyRun startedRun
      rw [newRun_eq]
      rfl
    rw [← same]
    exact ⟨startRun_eq t0 internal hs, fun h => enterState_empty (by rw [readyRun_st, h])⟩
  case entry =>
    intro c cRun run position d elapsed second first
    obtain ⟨fits, full⟩ := firstEntry_records t0 internal hn hl he
    have sq := firstEntry_sq t0 internal he
    have ws := firstEntry_ws t0 internal he
    have bo := firstEntry_bo t0 internal he
    have asmt := firstEntry_asmt t0 internal he
    have tb : (enterState r.first 0 (readyRun r t0 internal s)).tb = s.tb.latchAt t0 s.sq.resultHeld := by simp
    have bs : (enterState r.first 0 (readyRun r t0 internal s)).bs = (startedRun r t0 s).bs := by simp
    have al : (enterState r.first 0 (readyRun r t0 internal s)).al = (startedRun r t0 s).al := by simp
    have count : (enterState r.first 0 (readyRun r t0 internal s)).count = s.count := by simp
    have starts := startRun_eq t0 internal hs
    generalize enterState r.first 0 (readyRun r t0 internal s) = t at *
    refine ⟨t, starts, ?_⟩
    rw [newRun_eq] at sq fits full
    refine ⟨by rw [sq], by rw [sq], by rw [sq], by rw [sq], by rw [sq], by simp [sq], by rw [sq], by rw [sq], by rw [sq],
      by rw [sq], tb, by rw [bs]; rfl, by rw [bs]; rfl, by rw [bs]; rfl, by rw [bs]; rfl, by rw [ws], by rw [ws]; rfl,
      by rw [ws], by rw [bo], fun n => by simp [sq], fun m hm => ?others, by rw [sq], by rw [asmt], fun ch => ?live,
      fun k => ?outputs, by rw [asmt], by rw [asmt], count, by rw [al]; rfl, fun g => ?groups, fits, full⟩
    case others =>
      have apart : r.first.val ≠ m.val := fun h => hm (Fin.ext h.symm)
      simp [sq, Vector.getElem_set_ne _ _ apart]
    case live =>
      intro p x
      have loaded : x = loadRecord s.ws.ieMode (runCorrection s) 0 ch p .cleared := by simp [x, p, ws]
      rw [loaded]
      exact ⟨loadRecord_residual, loadRecord_cleared⟩
    case outputs =>
      rw [bo, bs]
      simp
    case groups => cases g <;> rw [al] <;> exact ⟨rfl, rfl⟩
  case ended =>
    obtain ⟨k, grid, before, after⟩ := gridAfter_spec later
    exact ⟨k, by rw [runElapsed_ended ended, grid], before, after⟩

end Sys2Proof.Machine

/-! # Settings and samples of the contact inputs (R34 to R37, R39, R49) -/

namespace Sys2Proof.Machine

/-! ## INSET (R35) -/

/-- R35: a field outside its table is refused, whatever the state. -/
theorem requestInset_range {input mode polarity role : Byte} {window : Half} (s : State)
    (h : input = 0 ∨ 12 < input.toNat ∨ 2 < mode.toNat ∨ 1 < polarity.toNat ∨ 5 < role.toNat) :
    requestInset input mode polarity role window s = refuse .range s := by
  unfold requestInset
  cases hk : inputOfCode input with
  | none => rfl
  | some k =>
    have inside : ¬ (input = 0 ∨ 12 < input.toNat) := fun hn => by
      rw [(inputOfCode_none input).2 hn] at hk
      cases hk
    have outside : InputMode.ofCode mode.toNat = none ∨ Polarity.ofCode polarity.toNat = none ∨
        Role.ofCode role.toNat = none := by
      rw [InputMode.ofCode_none, Polarity.ofCode_none, Role.ofCode_none]
      tauto
    dsimp only
    split
    · next hm hp hr => simp [hm, hp, hr] at outside
    · rfl

section
variable {input mode polarity role : Byte} {k : Fin 12} {m : InputMode} {p : Polarity} {r : Role}
  (hk : inputOfCode input = some k) (hm : InputMode.ofCode mode.toNat = some m)
  (hp : Polarity.ofCode polarity.toNat = some p) (hr : Role.ofCode role.toNat = some r) (window : Half)
include hk hm hp hr

theorem requestInset_busy {s : State} (hs : s.sq.state ≠ .idle) :
    requestInset input mode polarity role window s = refuse .busy s := by
  simp only [requestInset, hk, hm, hp, hr]
  exact if_pos hs

theorem requestInset_done {s : State} (hs : s.sq.state = .idle) :
    requestInset input mode polarity role window s =
      carried (clampStatus (clampNat 0 25000 window.toNat ≠ window.toNat)) []
        (putInput k (resetInput m p r (clampNat 0 25000 window.toNat) s.ci.inputs[k]) s) := by
  simp only [requestInset, hk, hm, hp, hr]
  exact if_neg (not_not_intro hs)

end

/-- Codes inside their tables name an input, a mode, a polarity and a role. -/
theorem insetCodes_of_good {input mode polarity role : Byte}
    (h : ¬ (input = 0 ∨ 12 < input.toNat ∨ 2 < mode.toNat ∨ 1 < polarity.toNat ∨ 5 < role.toNat)) :
    (∃ k, inputOfCode input = some k) ∧ (∃ m, InputMode.ofCode mode.toNat = some m) ∧
      (∃ p, Polarity.ofCode polarity.toNat = some p) ∧ ∃ r, Role.ofCode role.toNat = some r := by
  simp only [← Option.ne_none_iff_exists', ne_eq, inputOfCode_none, InputMode.ofCode_none, Polarity.ofCode_none,
    Role.ofCode_none]
  tauto

theorem clampStatus_ne (a b : Nat) : clampStatus (a ≠ b) = if a = b then .ok else .clamped := by
  by_cases h : a = b <;> simp [clampStatus, h]

/-- R35: the settled level after INSET, by the mode. -/
theorem resetInput_eq (m : InputMode) (p : Polarity) (r : Role) (w : Nat) (x : ContactInput) :
    resetInput m p r w x =
      { mode := m, polarity := p, role := r, window := w, history := x.history
        settled := m = .contact && presentMajority p x.history
        qualifier := .steady, glitches := 0, bounces := 0, pendingEdge := none } := by
  cases m <;> rfl

/-- Settles O11: INSET refused by a code, refused outside IDLE, and carried out. -/
theorem insetSetsOneInput : Obligations.InsetSetsOneInput := by
  intro tag input mode polarity role window s l h bad w
  refine ⟨fun hb => ?range, fun hb hs => ?busy, fun k m p r hk hm hp hr hs => ?done⟩ <;> rw [exec_requestOf rfl]
  case range => exact act_refuse l fun y => requestInset_range (putCl y s) hb
  case busy =>
    obtain ⟨⟨k, hk⟩, ⟨m, hm⟩, ⟨p, hp⟩, ⟨r, hr⟩⟩ := insetCodes_of_good hb
    exact act_refuse l fun y => requestInset_busy hk hm hp hr window (s := putCl y s) hs
  case done =>
    rw [← clampStatus_ne, ← resetInput_eq]
    exact act_answer l
      (fun y => requestInset_done (inputOfCode_some input k hk) hm hp hr window (s := putCl y s) hs) rfl

/-! ## CONTACT_SAMPLE (R34) -/

theorem exec_contactSample {contacts : BitVec 12} {sync : Bool} {s : State} (hr : s.resetLine = false)
    (hc : s.count = s.ci.nextSample) :
    exec (.contactSample contacts sync) s = .next (settle (takeContactSample contacts sync s)) :=
  exec_due (b := contactSampleDue s) hr rfl (decide_eq_true hc)

theorem logicalLevel_eq (p : Polarity) (raw : Bool) :
    logicalLevel p raw = if p = .activeClosed then raw else !raw := by
  cases p <;> rfl

theorem stepQualifier_candidate (count first : Nat) (level settled : Bool) {samples : List Bool}
    (h : samples.length < 3) :
    stepQualifier count level settled (.candidate first samples) = .candidate first (samples ++ [level]) := if_pos h

section
variable (count : Nat) (raw : Bool) {x : ContactInput}

/-- R36: an input that is not in CONTACT only follows its raw history. -/
theorem sampleInput_apart (h : x.mode ≠ .contact) :
    sampleInput count raw x = { x with history := ⟨raw, x.history.newest, x.history.middle⟩ } := by
  unfold sampleInput
  cases hm : x.mode with
  | contact => exact absurd hm h
  | off | injected => rfl

theorem sampleInput_contact (h : x.mode = .contact) :
    sampleInput count raw x =
      { x with
        history := ⟨raw, x.history.newest, x.history.middle⟩
        bounces := stepBounces count raw x
        qualifier := stepQualifier count (if x.polarity = .activeClosed then raw else !raw) x.settled x.qualifier } := by
  simp only [sampleInput, h, logicalLevel_eq, RawHistory.push]

/-- R37: a steady input begins a candidate where the sample differs from the settled level. -/
theorem sampleInput_steady (h : x.mode = .contact) (hq : x.qualifier = .steady) :
    let level := if x.polarity = .activeClosed then raw else !raw
    sampleInput count raw x =
      { x with
        history := ⟨raw, x.history.newest, x.history.middle⟩
        qualifier := if level = x.settled then .steady else .candidate count [level] } := by
  simp only [sampleInput_contact count raw h, hq, stepBounces, stepQualifier]

/-- R37: a candidate takes its next sample. -/
theorem sampleInput_candidate (h : x.mode = .contact) {first : Nat} {samples : List Bool}
    (hq : x.qualifier = .candidate first samples) (hl : samples.length < 3) :
    sampleInput count raw x =
      { x with
        history := ⟨raw, x.history.newest, x.history.middle⟩
        qualifier := .candidate first (samples ++ [if x.polarity = .activeClosed then raw else !raw]) } := by
  simp only [sampleInput_contact count raw h, hq, stepBounces, stepQualifier_candidate _ _ _ _ hl]

/-- R39: a window before its end counts a bounce where two raw samples differ. -/
theorem sampleInput_window (h : x.mode = .contact) {last : Nat} (hq : x.qualifier = .window last) :
    sampleInput count raw x =
      { x with
        history := ⟨raw, x.history.newest, x.history.middle⟩
        bounces := if raw = x.history.newest ∨ last ≤ count then x.bounces else min 255 (x.bounces + 1) } := by
  have bounce : stepBounces count raw x =
      if raw = x.history.newest ∨ last ≤ count then x.bounces else min 255 (x.bounces + 1) := by
    simp only [stepBounces, hq, bump255]
    by_cases hn : raw = x.history.newest
    · simp [hn]
    · by_cases hl : last ≤ count
      · simp [hl]
      · simp [hn, hl, Nat.lt_of_not_le hl]
  rw [sampleInput_contact count raw h, bounce]
  simp only [hq, stepQualifier]

end

/-- Settles O34: each input by its mode and the phase of its qualifier, then SYNC IN. -/
theorem contactSampleEntersEveryHistory : Obligations.ContactSampleEntersEveryHistory := by
  intro contacts sync s hr hc
  refine ⟨_, exec_contactSample hr hc, rfl, fun k => ?input, ?sync⟩
  case input =>
    have sampled : (takeContactSample contacts sync s).ci.inputs[k] =
        sampleInput s.count (contacts.getLsbD k.val) s.ci.inputs[k] := by simp [takeContactSample]
    intro x raw level y
    refine ⟨fun h => ?apart, fun h hq => ?steady, fun first samples h hq hl => ?candidate, fun e h hq => ?window⟩ <;>
      refine sampled.trans ?_
    case apart => exact sampleInput_apart s.count raw h
    case steady => exact sampleInput_steady s.count raw h hq
    case candidate => exact sampleInput_candidate s.count raw h hq hl
    case window => exact sampleInput_window s.count raw h hq
  case sync =>
    intro x y
    refine ⟨fun hq => ?steady, fun first samples hq hl => ?candidate⟩
    case steady => simp only [sampleSync, hq, stepQualifier, x, y]; rfl
    case candidate => simp only [sampleSync, hq, stepQualifier_candidate _ _ _ _ hl, x, y]; rfl

end Sys2Proof.Machine

/-! # Edges of BI1..BI12 (R37 to R43, R46 to R48, R117) -/

namespace Sys2Proof.Machine

/-! ## Sample 0 before a command (R117) -/

theorem firstSampleDue_iff (s : State) :
    firstSampleDue s = true ↔ s.inRun = true ∧ s.count = s.ws.nextGrid ∧ ∃ c, s.tb.latch = some ⟨s.count, c⟩ := by
  unfold firstSampleDue gridDue
  cases h : s.tb.latch with
  | none => simp
  | some l =>
    obtain ⟨t0, c⟩ := l
    simp [and_assoc, and_left_comm]

theorem commandWaits_iff (k : Fin 12) (s : State) :
    commandWaits k s ↔ s.ci.inputs[k].role ≠ .timing ∧ firstSampleDue s = true := by
  rw [firstSampleDue_iff]
  rfl

theorem inRun_of_commandWaits {k : Fin 12} {s : State} (h : commandWaits k s) : s.inRun = true := by
  obtain ⟨-, hr, -⟩ := h
  exact hr

/-- R117: an ACTIVE edge that waits finds the grid instant taken. -/
theorem firstSampleFirst_waits {k : Fin 12} {s : State} (h : commandWaits k s) :
    firstSampleFirst k true s = gridInstant s := by
  obtain ⟨hrole, hdue⟩ := (commandWaits_iff k s).1 h
  exact if_pos (by rw [decide_eq_true hrole, hdue]; rfl)

/-- An edge that is not ACTIVE, or does not wait, acts at once. -/
theorem firstSampleFirst_now {k : Fin 12} {active : Bool} {s : State} (h : ¬ (active = true ∧ commandWaits k s)) :
    firstSampleFirst k active s = s := by
  obtain ⟨ha, hrole, hdue, -⟩ | h' := firstSampleFirst_cases k active s
  · exact absurd ⟨ha, (commandWaits_iff k s).2 ⟨hrole, hdue⟩⟩ h
  · exact h'

theorem not_commandWaits_gridInstant (k : Fin 12) (s : State) : ¬ commandWaits k (gridInstant s) := by
  rw [commandWaits_iff, firstSampleDue_gridInstant]
  simp

theorem gridInstant_resetLine (s : State) : (gridInstant s).resetLine = s.resetLine :=
  (gridInstant_sound s).quiet.resetLine

theorem exec_gridInstant_of_waits {k : Fin 12} {s : State} (hr : s.resetLine = false) (h : commandWaits k s) :
    exec .gridInstant s = .next (settle (gridInstant s)) := by
  obtain ⟨-, -, hgrid, -⟩ := h
  exact exec_gridInstant hr hgrid

/-! ## An input and its pending record (R46) -/

theorem putInput_putInput (k : Fin 12) (x y : ContactInput) (s : State) :
    putInput k x (putInput k y s) = putInput k x s := by
  simp [putInput]

theorem putInput_input (k : Fin 12) (x : ContactInput) (s : State) : (putInput k x s).ci.inputs[k] = x := by
  simp

theorem putInput_inRun (k : Fin 12) (x : ContactInput) (s : State) : (putInput k x s).inRun = s.inRun := rfl

theorem putInput_now (k : Fin 12) (x : ContactInput) (s : State) : (putInput k x s).now = s.now := rfl

theorem writePending_none {t : Nat} {s : State} {k : Fin 12} (h : s.ci.inputs[k].pendingEdge = none) :
    writePending t s k = s := by
  simp only [writePending, h]

theorem writePending_some {t : Nat} {s : State} {k : Fin 12} {e : PendingEdge}
    (h : s.ci.inputs[k].pendingEdge = some e) :
    writePending t s k =
      offerRun t (.inputEdge k.succ e.direction e.edgeTime e.noise e.glitches s.ci.inputs[k].bounces e.injected)
        (putInput k { s.ci.inputs[k] with pendingEdge := none } s) := by
  simp only [writePending, h]
  rfl

/-- R43: outside a run an edge is delivered to nobody. -/
theorem deliverEdge_outside {s : State} (h : s.inRun = false) (input : Fin 13) (role : Role) (direction : Direction)
    (te : Nat) : deliverEdge input role direction te s = s := by
  simp [deliverEdge, h]

/-! ## The third candidate sample (R37, R38) -/

theorem exec_qualification {k : Fin 12} {s : State} (hr : s.resetLine = false)
    (hq : s.ci.inputs[k].qualifier.ripe = true) :
    exec (.qualification k.succ) s =
      .next (settle (qualifyInput k (firstSampleFirst k (qualifiesActive k s) s))) := by
  have whole : qualify k.succ s = qualifyInput k (firstSampleFirst k (qualifiesActive k s) s) := by
    simp only [qualify, contactOf_succ]
  rw [← whole]
  exact exec_due (b := qualificationDue k.succ s) hr rfl ((qualificationDue_input k s).trans hq)

section
variable {k : Fin 12} {first : Nat} {samples : List Bool} {s : State}
  (hq : s.ci.inputs[k].qualifier = .candidate first samples) (hl : samples.length = 3)
include hq hl

theorem ripe_of_candidate : s.ci.inputs[k].qualifier.ripe = true := (ripe_iff _).2 ⟨first, samples, hq, hl⟩

theorem qualifiesActive_iff :
    qualifiesActive k s = true ↔
      s.ci.inputs[k].settled = false ∧ 2 ≤ differing s.ci.inputs[k].settled samples := by
  simp only [qualifiesActive, hq, hl, Bool.and_eq_true, Bool.not_eq_true', decide_eq_true_eq, true_and]

/-- R38: fewer than two differing samples are a glitch. -/
theorem qualifyInput_glitch (hn : differing s.ci.inputs[k].settled samples ≤ 1) :
    qualifyInput k s =
      putInput k { s.ci.inputs[k] with
        qualifier := .steady, glitches := min 255 (s.ci.inputs[k].glitches + 1) } s := by
  have few : ¬ 2 ≤ differing s.ci.inputs[k].settled samples := by omega
  simp only [qualifyInput, hq, hl, if_true, few, if_false, bump255]

/-- R37: the edge of two or three differing samples. -/
theorem qualifyInput_edge (hn : 2 ≤ differing s.ci.inputs[k].settled samples) :
    let x := s.ci.inputs[k]
    let direction := Direction.ofLevel (!x.settled)
    let pending := pendingFor s direction first (differing x.settled samples = 2) x.glitches false
    let u := deliverEdge k.succ x.role direction (s.runTimeAt first) (putInput k (afterEdge s.count pending x) s)
    qualifyInput k s = if x.window = 0 then writePending u.now u k else u := by
  simp only [qualifyInput, hq, hl, if_true, hn]
  rfl

/-- Outside a run an edge only sets the input. -/
theorem qualifyInput_outside (hn : 2 ≤ differing s.ci.inputs[k].settled samples) (hr : s.inRun = false) :
    qualifyInput k s = putInput k (afterEdge s.count none s.ci.inputs[k]) s := by
  have none_pending (d : Direction) (noise : Bool) (g : Nat) : pendingFor s d first noise g false = none := by
    simp [pendingFor, hr]
  rw [qualifyInput_edge hq hl hn]
  simp only [none_pending]
  rw [deliverEdge_outside (by exact hr), writePending_none (by rw [putInput_input]; rfl), ite_self]

end

theorem ofLevel_not (b : Bool) : Direction.ofLevel (!b) = if b then .inactive else .active := by
  cases b <;> rfl

/-- R117: the row at a count where the edge waits is the grid instant and then the row. -/
theorem exec_qualification_waits {k : Fin 12} {first : Nat} {samples : List Bool} {s : State}
    (hr : s.resetLine = false) (hq : s.ci.inputs[k].qualifier = .candidate first samples) (hl : samples.length = 3)
    (ha : qualifiesActive k s = true) (hw : commandWaits k s) :
    exec (.qualification k.succ) s = exec (.qualification k.succ) (gridInstant s) := by
  obtain ⟨e, he⟩ := gridInstant_input k s
  have hq' : (gridInstant s).ci.inputs[k].qualifier = .candidate first samples := by rw [he]; exact hq
  rw [exec_qualification hr (ripe_of_candidate hq hl),
    exec_qualification ((gridInstant_resetLine s).trans hr) (ripe_of_candidate hq' hl), ha, firstSampleFirst_waits hw,
    firstSampleFirst_gridInstant]

end Sys2Proof.Machine

/-! # INJECT and the window end (R39, R40, R42) -/

namespace Sys2Proof.Machine

/-! ## INJECT's checks and its edge (R42) -/

theorem twoValued_bad (level : Byte) : 1 < level.toNat → twoValued level.toNat = none := by
  revert level; decide

theorem twoValued_good (level : Byte) : level.toNat ≤ 1 → twoValued level.toNat = some (decide (level = 1)) := by
  revert level; decide

theorem requestInject_noInput {input : Byte} (level : Byte) (s : State) (h : input = 0 ∨ 12 < input.toNat) :
    requestInject input level s = refuse .range s := by
  simp only [requestInject, (inputOfCode_none input).2 h]

section
variable {input level : Byte} {k : Fin 12} (hk : inputOfCode input = some k) (s : State)
include hk

theorem requestInject_noLevel (h : 1 < level.toNat) : requestInject input level s = refuse .range s := by
  simp only [requestInject, hk, twoValued_bad level h]

theorem requestInject_order (h : level.toNat ≤ 1) (hm : s.ci.inputs[k].mode ≠ .injected) :
    requestInject input level s = refuse .order s := by
  simp only [requestInject, hk, twoValued_good level h]
  exact if_pos hm

theorem requestInject_done (h : level.toNat ≤ 1) (hm : s.ci.inputs[k].mode = .injected) :
    requestInject input level s =
      carried .ok [] (injectEdge k (level = 1)
        (firstSampleFirst k (decide (level = 1) && !s.ci.inputs[k].settled) s)) := by
  simp only [requestInject, hk, twoValued_good level h]
  exact if_neg (not_not_intro hm)

end

theorem injectEdge_same {k : Fin 12} {level : Bool} {s : State} (h : level = s.ci.inputs[k].settled) :
    injectEdge k level s = s := if_pos h

section
variable {k : Fin 12} {level : Bool} {s : State} (h : level ≠ s.ci.inputs[k].settled)
include h

theorem injectEdge_changed :
    let direction := Direction.ofLevel level
    let u := deliverEdge k.succ s.ci.inputs[k].role direction s.now
      (putInput k { s.ci.inputs[k] with
        settled := level, pendingEdge := pendingFor s direction s.count false 0 true } s)
    injectEdge k level s = writePending u.now u k := if_neg h

/-- R42: outside a run the level alone is set. -/
theorem injectEdge_outside (hr : s.inRun = false) :
    injectEdge k level s = putInput k { s.ci.inputs[k] with settled := level, pendingEdge := none } s := by
  have nothing : pendingFor s (.ofLevel level) s.count false 0 true = none := by simp [pendingFor, hr]
  rw [injectEdge_changed h]
  simp only [nothing]
  rw [deliverEdge_outside (by exact hr), writePending_none (by rw [putInput_input])]

/-- R42, R46: in a run the edge is delivered while its record is pending, which is written then. -/
theorem injectEdge_delivered (hr : s.inRun = true) :
    let direction := Direction.ofLevel level
    let u := deliverEdge k.succ s.ci.inputs[k].role direction s.now
      (putInput k { s.ci.inputs[k] with
        settled := level, pendingEdge := some ⟨direction, s.now, false, 0, true⟩ } s)
    injectEdge k level s = writePending u.now u k := by
  have pending (d : Direction) : pendingFor s d s.count false 0 true = some ⟨d, s.now, false, 0, true⟩ := by
    simp only [pendingFor, hr]
    rfl
  rw [injectEdge_changed h, pending]

end

theorem ofLevel_decide (p : Prop) [Decidable p] : Direction.ofLevel (decide p) = if p then .active else .inactive := by
  by_cases h : p <;> simp [Direction.ofLevel, h]

/-- The request is in service, and nothing else has happened. -/
def injectServed (tag input level : Byte) (s : State) : State :=
  putCl { s.cl with inService := some ⟨tag, .inject input level⟩ } s

section
variable {tag input level : Byte} {k : Fin 12} {s : State} (l : listening s) (hk : inputOfCode input = some k)
  (h : level.toNat ≤ 1) (hm : s.ci.inputs[k].mode = .injected)
include l hk h hm

/-- The step of an INJECT that is taken into service and passes its checks. -/
theorem exec_inject_done :
    exec (.inject tag input level) s =
      .next (settle (pushAnswer ⟨0x12, tag, .ok, [], true⟩ (injectEdge k (level = 1)
        (firstSampleFirst k (decide (level = 1) && !s.ci.inputs[k].settled) (injectServed tag input level s))))) := by
  have carry := requestInject_done hk (injectServed tag input level s) h hm
  rw [exec_requestOf rfl, act_submit l]
  unfold injectServed at carry
  simp only [carryOut, carry]
  rfl

theorem exec_inject_now (hn : ¬ (level = 1 ∧ s.ci.inputs[k].settled = false ∧ commandWaits k s)) :
    exec (.inject tag input level) s =
      .next (settle (pushAnswer ⟨0x12, tag, .ok, [], true⟩
        (injectEdge k (level = 1) (injectServed tag input level s)))) := by
  rw [exec_inject_done l hk h hm, firstSampleFirst_now]
  rw [Bool.and_eq_true, decide_eq_true_eq, Bool.not_eq_true', and_assoc]
  exact hn

/-- R117: an ACTIVE edge that waits for sample 0. -/
theorem exec_inject_first (ha : level = 1) (hs : s.ci.inputs[k].settled = false) (hw : commandWaits k s) :
    exec (.inject tag input level) s =
      .next (settle (pushAnswer ⟨0x12, tag, .ok, [], true⟩
        (injectEdge k (level = 1) (gridInstant (injectServed tag input level s))))) := by
  have served : commandWaits k (injectServed tag input level s) := hw
  rw [exec_inject_done l hk h hm, hs, decide_eq_true ha, Bool.not_false, Bool.and_true, firstSampleFirst_waits served]

end

/-- Settles O12: the refusals, an equal level, a new level outside a run, and a new level in a run, at once or after
sample 0. -/
theorem injectSetsTheLevel : Obligations.InjectSetsTheLevel := by
  intro tag input level s l h
  refine ⟨fun hb => ?noInput, fun k hk => ?input⟩
  case noInput =>
    rw [exec_requestOf rfl]
    exact act_refuse l fun y => requestInject_noInput level (putCl y s) hb
  case input =>
    have hk := inputOfCode_some input k hk
    intro x active
    refine ⟨fun hl => ?noLevel, fun hl hm => ?order, fun hl hm he => ?same, fun hl hm he hr => ?outside,
      fun hl hm he hr => ?inside⟩
    case noLevel =>
      rw [exec_requestOf rfl]
      exact act_refuse l fun y => requestInject_noLevel hk (putCl y s) hl
    case order =>
      rw [exec_requestOf rfl]
      exact act_refuse l fun y => requestInject_order hk (putCl y s) hl hm
    case same =>
      have level_eq : decide (level = 1) = s.ci.inputs[k].settled := he.symm
      rw [exec_inject_now l hk hl hm fun ⟨ha, hs, _⟩ => by rw [hs] at level_eq; simp [ha] at level_eq,
        injectEdge_same (s := injectServed tag input level s) level_eq]
      rfl
    case outside =>
      have level_ne : decide (level = 1) ≠ s.ci.inputs[k].settled := Ne.symm he
      rw [exec_inject_now l hk hl hm fun ⟨_, _, hw⟩ => by simp [inRun_of_commandWaits hw] at hr,
        injectEdge_outside (s := injectServed tag input level s) level_ne hr]
      rfl
    case inside =>
      intro direction served put answered delivered first
      refine ⟨fun hn => ?now, fun ha hw => ⟨fun hf => ?after, fun hf => ?ended⟩⟩
      case now =>
        have level_ne : decide (level = 1) ≠ served.ci.inputs[k].settled := Ne.symm he
        have edge := injectEdge_delivered level_ne hr
        rw [ofLevel_decide] at edge
        rw [exec_inject_now l hk hl hm fun ⟨ha, _, hw⟩ => hn ⟨ha, hw⟩]
        exact congrArg (fun v => Host.Outcome.next (answered v)) edge
      all_goals
        obtain ⟨e, hx⟩ := gridInstant_input k served
        have level_ne : decide (level = 1) ≠ first.ci.inputs[k].settled := by rw [hx]; exact Ne.symm he
        have low : x.settled = false := by simpa [active, show level = 1 from ha] using he
        rw [exec_inject_first l hk hl hm ha low hw]
      case after =>
        have edge := injectEdge_delivered level_ne hf
        rw [ofLevel_decide] at edge
        exact congrArg (fun v => Host.Outcome.next (answered v)) edge
      case ended => exact congrArg (fun v => Host.Outcome.next (answered v)) (injectEdge_outside level_ne hf)

end Sys2Proof.Machine

/-! # The window-end sample (R39, R40, R47, R48) -/

namespace Sys2Proof.Machine

/-! ## Its bounce and the record of the edge before -/

/-- The input after the bounce of the window-end sample, its pending record written (R39, R40). -/
def closedInput (x : ContactInput) : ContactInput :=
  { x with
    bounces := if x.history.newest = x.history.middle then x.bounces else min 255 (x.bounces + 1)
    pendingEdge := none }

/-- The state after the bounce and the pending record of the edge before (R40). -/
def windowClosed (k : Fin 12) (s : State) : State :=
  match s.ci.inputs[k].pendingEdge with
  | some p =>
    offerRun s.now (.inputEdge k.succ p.direction p.edgeTime p.noise p.glitches (closedInput s.ci.inputs[k]).bounces
      p.injected) (putInput k (closedInput s.ci.inputs[k]) s)
  | none => putInput k (closedInput s.ci.inputs[k]) s

theorem countLastBounce_unpending (x : ContactInput) :
    { countLastBounce x with pendingEdge := none } = closedInput x := by
  unfold countLastBounce closedInput
  by_cases h : x.history.newest = x.history.middle <;> simp [h, bump255]

theorem countLastBounce_bounces (x : ContactInput) : (countLastBounce x).bounces = (closedInput x).bounces :=
  (congrArg ContactInput.bounces (countLastBounce_unpending x) :)

theorem writePending_countLastBounce (k : Fin 12) (s : State) :
    writePending s.now (putInput k (countLastBounce s.ci.inputs[k]) s) k = windowClosed k s := by
  unfold windowClosed
  have kept : (countLastBounce s.ci.inputs[k]).pendingEdge = s.ci.inputs[k].pendingEdge := rfl
  cases hp : s.ci.inputs[k].pendingEdge with
  | none =>
    have same : countLastBounce s.ci.inputs[k] = closedInput s.ci.inputs[k] := by
      rw [← countLastBounce_unpending, ← hp]
      rfl
    rw [writePending_none (by rw [putInput_input, kept, hp]), same]
  | some p =>
    rw [writePending_some (by rw [putInput_input, kept, hp]), putInput_input, putInput_putInput,
      countLastBounce_unpending, countLastBounce_bounces]

section
variable (k : Fin 12) (s : State)

theorem windowClosed_ci : (windowClosed k s).ci = (putInput k (closedInput s.ci.inputs[k]) s).ci := by
  unfold windowClosed
  split
  · exact offerRun_ci _ _ _
  · rfl

theorem windowClosed_input : (windowClosed k s).ci.inputs[k] = closedInput s.ci.inputs[k] := by
  rw [windowClosed_ci, putInput_input]

theorem windowClosed_inRun : (windowClosed k s).inRun = s.inRun := by
  unfold windowClosed
  split
  · exact (offerRun_kept _ rfl _).inRun
  · rfl

theorem windowClosed_count : (windowClosed k s).count = s.count := by
  unfold windowClosed
  split
  · exact offerRun_count _ _ _
  · rfl

theorem windowClosed_now : (windowClosed k s).now = s.now := by
  have tb : (windowClosed k s).tb = s.tb := by
    unfold windowClosed
    split
    · exact offerRun_tb _ _ _
    · rfl
  simp only [State.now, State.runTimeAt, windowClosed_count, tb]

end

/-! ## STEADY or a recheck edge (R40) -/

/-- What follows once the bounce is counted and the record written. -/
theorem endWindow_closed (k : Fin 12) (s : State) :
    endWindow k s =
      let v := windowClosed k s
      let x := v.ci.inputs[k]
      let level := presentMajority x.polarity x.history
      if level = x.settled then putInput k { x with qualifier := .steady } v
      else
        let direction := Direction.ofLevel level
        deliverEdge k.succ x.role direction v.now
          (putInput k (afterEdge v.count (pendingFor v direction v.count true x.glitches false) x) v) := by
  rw [← writePending_countLastBounce]
  rfl

/-- The present majority agrees with the settled level. -/
theorem endWindow_steady {k : Fin 12} {s : State}
    (h : presentMajority s.ci.inputs[k].polarity s.ci.inputs[k].history = s.ci.inputs[k].settled) :
    endWindow k s = putInput k { closedInput s.ci.inputs[k] with qualifier := .steady } (windowClosed k s) := by
  rw [endWindow_closed]
  dsimp only
  rw [windowClosed_input]
  exact if_pos h

/-- The majority differs: a recheck edge. -/
theorem endWindow_recheck {k : Fin 12} {s : State}
    (h : presentMajority s.ci.inputs[k].polarity s.ci.inputs[k].history ≠ s.ci.inputs[k].settled) :
    let x := s.ci.inputs[k]
    let direction := Direction.ofLevel (presentMajority x.polarity x.history)
    endWindow k s =
      deliverEdge k.succ x.role direction s.now
        (putInput k
          { closedInput x with
            settled := !x.settled, glitches := 0, bounces := 0
            pendingEdge := if s.inRun then some ⟨direction, s.now, true, x.glitches, false⟩ else none
            qualifier := if x.window = 0 then .steady else .window (s.count + 10 * x.window) } (windowClosed k s)) := by
  have pending (d : Direction) : pendingFor (windowClosed k s) d s.count true s.ci.inputs[k].glitches false =
      if s.inRun then some ⟨d, s.now, true, s.ci.inputs[k].glitches, false⟩ else none := by
    rw [pendingFor, windowClosed_inRun, ← windowClosed_count k s, ← windowClosed_now k s]
    rfl
  intro x direction
  rw [endWindow_closed]
  dsimp only
  rw [windowClosed_input, windowClosed_now, windowClosed_count, ← pending]
  exact if_neg h

/-! ## The row -/

section
variable {k : Fin 12} {s : State}

theorem exec_windowEnd (hr : s.resetLine = false) (hd : windowDue k s = true) :
    exec (.windowEnd k.succ) s =
      .next (settle (endWindow k (firstSampleFirst k (rechecksActive k s) s))) := by
  have whole : windowEnd k.succ s = endWindow k (firstSampleFirst k (rechecksActive k s) s) := by
    simp only [windowEnd, contactOf_succ, hd, if_true]
  have due : windowEndDue k.succ s = windowDue k s := by simp only [windowEndDue, contactOf_succ]
  rw [← whole]
  exact exec_due (b := windowEndDue k.succ s) hr rfl (due.trans hd)

theorem windowDue_iff :
    windowDue k s = true ↔
      ∃ last, s.ci.inputs[k].qualifier = .window last ∧ last ≤ s.count ∧ s.ci.nextSample = s.count + 100 := by
  unfold windowDue
  cases s.ci.inputs[k].qualifier <;> simp

theorem rechecksActive_iff :
    rechecksActive k s = true ↔ windowDue k s = true ∧ s.ci.inputs[k].settled = false ∧
      presentMajority s.ci.inputs[k].polarity s.ci.inputs[k].history = true := by
  simp only [rechecksActive, Bool.and_eq_true, Bool.not_eq_true', and_assoc]

theorem windowDue_gridInstant (hd : windowDue k s = true) : windowDue k (gridInstant s) = true := by
  obtain ⟨last, hq, hl, hn⟩ := windowDue_iff.1 hd
  obtain ⟨e, he⟩ := gridInstant_input k s
  have next : (gridInstant s).ci.nextSample = s.ci.nextSample := (gridInstant_fixed s).nextSample
  refine windowDue_iff.2 ⟨last, by rw [he]; exact hq, ?_, ?_⟩
  · rwa [gridInstant_count]
  · rwa [next, gridInstant_count]

/-- A window end with no ACTIVE edge that waits for sample 0. -/
theorem exec_windowEnd_now (hr : s.resetLine = false) (hd : windowDue k s = true)
    (hn : ¬ (rechecksActive k s = true ∧ commandWaits k s)) :
    exec (.windowEnd k.succ) s = .next (settle (endWindow k s)) := by
  rw [exec_windowEnd hr hd, firstSampleFirst_now hn]

/-- R117: the row at a count where the recheck edge waits is the grid instant and then the row. -/
theorem exec_windowEnd_waits (hr : s.resetLine = false) (ha : rechecksActive k s = true) (hw : commandWaits k s) :
    exec (.windowEnd k.succ) s = exec (.windowEnd k.succ) (gridInstant s) := by
  obtain ⟨hd, -, -⟩ := rechecksActive_iff.1 ha
  rw [exec_windowEnd hr hd, exec_windowEnd ((gridInstant_resetLine s).trans hr) (windowDue_gridInstant hd), ha,
    firstSampleFirst_waits hw, firstSampleFirst_gridInstant]

end

/-- Settles O36: the majority agrees, its edge waits for sample 0, or it is delivered now. -/
theorem windowEndWritesAndRechecks : Obligations.WindowEndWritesAndRechecks := by
  intro k e s hr hq he hn x b y u level direction p
  have due : windowDue k s = true := windowDue_iff.2 ⟨e, hq, he, hn⟩
  have written : windowClosed k s = u := rfl
  have rising (h : rechecksActive k s = true) : x.settled = false ∧ level = true := (rechecksActive_iff.1 h).2
  refine ⟨fun hl => ?steady, fun hl hs hw => ?waits, fun hl hw => ?recheck⟩
  case steady =>
    have quiet : ¬ (rechecksActive k s = true ∧ commandWaits k s) := fun ⟨ha, _⟩ => by
      obtain ⟨hs, ht⟩ := rising ha
      rw [hs, ht] at hl
      cases hl
    rw [exec_windowEnd_now hr due quiet, endWindow_steady hl, written]
    rfl
  case waits =>
    have high : level = true := by
      rw [hs] at hl
      exact Bool.eq_true_of_not_eq_false hl
    exact ⟨exec_gridInstant_of_waits hr hw, not_commandWaits_gridInstant k s,
      exec_windowEnd_waits hr (rechecksActive_iff.2 ⟨due, hs, high⟩) hw⟩
  case recheck =>
    rw [exec_windowEnd_now hr due fun ⟨ha, hc⟩ => hw ⟨(rising ha).1, hc⟩, endWindow_recheck hl, written]
    rfl

end Sys2Proof.Machine

/-! # What judging and a sample leave of the contact inputs and the counters

An event is judged by changing the sequencer within the run, or by ending the run with TABLE (`JudgeEffect`). The rest of a
sample leaves the contact inputs and the sequencer (`Aside`). So a run that is still in progress after an operation has
left the contact inputs as they were (`InputsStand`). -/

namespace Sys2Proof.Machine

/-! ## The judging of exits (R157 to R161) -/

/-- The sequencer moves within the run, or the run ends with TABLE; the counters are left. -/
inductive JudgeEffect (s : State) : State → Prop
  | moved (q : Sequencer) (counters : q.counters = s.sq.counters)
      (run : ({ s with sq := q } : State).inRun = s.inRun) : JudgeEffect s { s with sq := q }
  | ended (q : Sequencer) (counters : q.counters = s.sq.counters) : JudgeEffect s (runEnd .table { s with sq := q })

theorem JudgeEffect.refl (s : State) : JudgeEffect s s := .moved s.sq rfl rfl

/-- Judging after a move of the sequencer within the run. -/
theorem JudgeEffect.after {s t : State} {q : Sequencer} (counters : q.counters = s.sq.counters)
    (run : ({ s with sq := q } : State).inRun = s.inRun) (h : JudgeEffect { s with sq := q } t) : JudgeEffect s t := by
  cases h with
  | moved p hc hr => exact .moved p (hc.trans counters) (hr.trans run)
  | ended p hc => exact .ended p (hc.trans counters)

theorem latchExit_effect (g : Guard) (i t : Nat) (s : State) : JudgeEffect s (latchExit g i t s) := .moved _ rfl rfl

theorem takeExit_effect (i : Nat) (x : Exit) (t : Nat) (cause : Option Nat) {s : State} (hr : s.inRun = true) :
    JudgeEffect s (takeExit i x t cause s) := by
  unfold takeExit
  dsimp only
  split
  · exact .moved _ rfl rfl
  · split
    · exact .ended _ rfl
    · split
      · exact .moved _ rfl ((inRun_of_pointing rfl).trans hr.symm)
      · exact .moved _ rfl rfl

theorem judgeEvent_effect (m : Trigger → Bool) (time : Nat) (s : State) : JudgeEffect s (judgeEvent m time s) := by
  unfold judgeEvent
  split
  · next hj =>
    split
    · exact .refl s
    · split
      · exact .refl s
      · split
        · exact latchExit_effect _ _ _ s
        · exact takeExit_effect _ _ _ _ (inRun_of_judges hj)
  · exact .refl s

theorem expireGuard_effect (e : Entry) (latch : Option Latch) (found : Option (Exit × Nat)) (t : Nat) {s : State}
    (hr : s.inRun = true) : JudgeEffect s (expireGuard e latch found t s) := by
  have take (i : Nat) (x : Exit) (cause : Option Nat) :
      JudgeEffect s (takeExit i x t cause { s with sq := { s.sq with guard := none } }) :=
    .after (q := { s.sq with guard := none }) rfl rfl (takeExit_effect i x t cause hr)
  have unlatched : JudgeEffect s { s with sq := { s.sq with guard := none } } := .moved _ rfl rfl
  unfold expireGuard
  cases latch with
  | none =>
    cases found with
    | none => exact unlatched
    | some y => exact take _ _ _
  | some l =>
    dsimp only
    split
    · cases found with
      | none => exact unlatched
      | some y => exact take _ _ _
    · cases found with
      | none => exact take _ _ _
      | some y =>
        dsimp only
        split
        · exact take _ _ _
        · exact take _ _ _

theorem judgeSample_effect (count : Nat) (events : List BreakerEvent) (s : State) :
    JudgeEffect s (judgeSample count events s) := by
  unfold judgeSample
  dsimp only
  split
  · next hj =>
    have hr := inRun_of_judges hj
    split
    · exact .refl s
    · split
      · split
        · split
          · exact latchExit_effect _ _ _ s
          · exact .refl s
        · exact expireGuard_effect _ _ _ _ hr
      · split
        · exact takeExit_effect _ _ _ _ hr
        · exact .refl s
  · exact .refl s

theorem runEnd_counters (o : RunOutcome) (s : State) : (runEnd o s).sq.counters = s.sq.counters := by
  obtain ⟨_, _, _, h⟩ := runEnd_sq o s
  rw [h]

section
variable {s t : State} (h : JudgeEffect s t)
include h

theorem JudgeEffect.counters : t.sq.counters = s.sq.counters := by
  cases h with
  | moved q hc _ => exact hc
  | ended q hc => exact (runEnd_counters _ _).trans hc

/-- A run that goes on after the judging has been in progress, and nothing but the sequencer has moved. -/
theorem JudgeEffect.of_inRun (hr : t.inRun = true) : s.inRun = true ∧ ∃ q, t = { s with sq := q } := by
  cases h with
  | moved q _ run => exact ⟨run.symm.trans hr, q, rfl⟩
  | ended q _ => rw [runEnd_inRun] at hr; cases hr

end

/-! ## The work of a sample (R112) -/

/-- The operation leaves the contact inputs and the sequencer. -/
structure Aside (s t : State) : Prop where
  ci : t.ci = s.ci
  sq : t.sq = s.sq

theorem Aside.refl (s : State) : Aside s s := ⟨rfl, rfl⟩

theorem Aside.trans {s t u : State} (h : Aside s t) (k : Aside t u) : Aside s u :=
  ⟨k.ci.trans h.ci, k.sq.trans h.sq⟩

theorem Aside.fold {α : Type} {f : State → α → State} (h : ∀ s a, Aside s (f s a)) (l : List α) (s : State) :
    Aside s (l.foldl f s) := by
  induction l generalizing s with
  | nil => exact .refl s
  | cons a l ih => exact (h s a).trans (ih (f s a))

theorem Aside.inRun {s t : State} (h : Aside s t) : t.inRun = s.inRun := by
  unfold State.inRun
  rw [h.sq]

theorem offerRun_aside (t : Nat) (body : RecordBody) (s : State) : Aside s (offerRun t body s) :=
  ⟨offerRun_ci _ _ _, offerRun_sq _ _ _⟩

/-- A pole's move with its record. -/
theorem movePole_aside (t : Nat) (x : BreakerSubject) (e : BreakerRecord) (d : Option Nat) (p : Pole) (q : Position)
    (s : State) : Aside s (breakerRecord t x e d (putPole p q s)) :=
  (show Aside s (putPole p q s) from ⟨rfl, rfl⟩).trans (offerRun_aside _ _ _)

theorem partContacts_aside (t : Nat) (s : State) (p : Pole) : Aside s (partContacts t s p) := by
  unfold partContacts
  split
  · split
    · exact movePole_aside ..
    · exact .refl s
  · exact .refl s

theorem forceOpen_aside (t : Nat) (s : State) (p : Pole) : Aside s (forceOpen t s p) := by
  unfold forceOpen
  split
  · split
    · exact movePole_aside ..
    · exact .refl s
  · exact .refl s

theorem finishClosing_aside (t : Nat) (s : State) (p : Pole) : Aside s (finishClosing t s p) := by
  unfold finishClosing
  split
  · split
    · exact movePole_aside ..
    · exact .refl s
  · exact .refl s

theorem breakerExpiries_aside (t : Nat) (s : State) : Aside s (breakerExpiries t s) := by
  have stages := ((Aside.fold (partContacts_aside t) poleOrder s).trans
    (Aside.fold (forceOpen_aside t) poleOrder _)).trans (Aside.fold (finishClosing_aside t) poleOrder _)
  unfold breakerExpiries
  dsimp only
  split
  · exact stages.trans (offerRun_aside _ _ _)
  · exact stages

theorem interruptPole_aside (t : Nat) (s : State) (p : Pole) : Aside s (interruptPole t s p) := by
  unfold interruptPole
  dsimp only
  split
  · split
    · exact movePole_aside ..
    · exact .refl s
  · exact .refl s

theorem clipEpisode_aside (t : Nat) (s : State) (ch : Fin 8) : Aside s (clipEpisode t s ch) := by
  have flagged (flag : Bool) (body : RecordBody) : Aside s (offerRun t body (putClip ch flag s)) :=
    (show Aside s (putClip ch flag s) from ⟨rfl, rfl⟩).trans (offerRun_aside _ _ _)
  unfold clipEpisode
  dsimp only
  split
  · exact flagged _ _
  · split
    · exact flagged _ _
    · exact .refl s

theorem computeWaves_aside (t : Nat) (s : State) : Aside s (computeWaves t s).1 := by
  have dropped : Aside s (if s.sq.entrySample then dropOpenDc s else s) := by split <;> exact ⟨rfl, rfl⟩
  unfold computeWaves
  dsimp only
  refine Aside.trans ?_ ⟨advanceAll_ci _, advanceAll_sq _⟩
  exact (dropped.trans (.fold (interruptPole_aside t) _ _)).trans (.fold (clipEpisode_aside t) _ _)

theorem chargeSpring_aside (t : Nat) (s : State) : Aside s (chargeSpring t s) := by
  unfold chargeSpring
  split
  · next start _ =>
    split
    · exact (show Aside s { s with bs := { s.bs with spring := .charged } } from ⟨rfl, rfl⟩).trans
        (offerRun_aside _ _ _)
    · exact .refl s
  · exact .refl s

theorem discrepancyPole_aside (t : Nat) (s : State) (p : Pole) : Aside s (discrepancyPole t s p) := by
  unfold discrepancyPole
  split
  · exact ⟨rfl, rfl⟩
  · exact movePole_aside ..
  · exact .refl s

theorem judgeDiscrepancy_aside (t : Nat) (s : State) : Aside s (judgeDiscrepancy t s) := by
  have put (x : Discrepancy) : Aside s (putDiscrepancy x s) := ⟨rfl, rfl⟩
  unfold judgeDiscrepancy
  split
  · exact .refl s
  · split
    · split
      · exact put _
      · split
        · exact ((put _).trans (.fold (discrepancyPole_aside t) poleOrder _)).trans (offerRun_aside _ _ _)
        · exact .refl s
      · exact .refl s
    · exact put _

theorem refreshOutputs_aside (running : Bool) (s : State) : Aside s (refreshOutputs running s) := ⟨rfl, rfl⟩

theorem computeSample_aside (t : Nat) (s : State) : Aside s (computeSample t s).1 := by
  unfold computeSample
  dsimp only
  refine Aside.trans ?_ (refreshOutputs_aside _ _)
  refine Aside.trans ?_ (judgeDiscrepancy_aside t _)
  refine Aside.trans ?_ (chargeSpring_aside t _)
  exact (breakerExpiries_aside t s).trans (computeWaves_aside t _)

/-! ## The assessment unit -/

theorem judgeItem_assessed (x : Subject) (time head : Nat) (s : State) (k : Nat) :
    Assessed s (judgeItem x time head s k) := by
  unfold judgeItem
  split
  · exact .refl s
  · split
    · exact .refl s
    · split
      · dsimp only
        split
        · exact decideItem_assessed _ _ _ _ _ s
        · exact .refl s
      · exact .refl s

theorem assessEvent_assessed (x : Subject) (time head : Nat) (s : State) : Assessed s (assessEvent x time head s) :=
  .fold (judgeItem_assessed x time head) _ s

theorem assessBreakerEvents_assessed (events : List BreakerEvent) (time head : Nat) (s : State) :
    Assessed s (assessBreakerEvents events time head s) := by
  refine .fold (fun s e => ?_) events s
  split
  · exact assessEvent_assessed _ _ _ s
  · exact .refl s

theorem Assessed.aside {s t : State} (h : Assessed s t) : Aside s t := ⟨h.ci, h.sq⟩

/-! ## A run that goes on (R46, R47) -/

/-- Where a run is in progress after the operation, it was before, and the contact inputs stand as they were. -/
def InputsStand (s t : State) : Prop := t.inRun = true → s.inRun = true ∧ t.ci = s.ci

theorem InputsStand.trans {s t u : State} (h : InputsStand s t) (k : InputsStand t u) : InputsStand s u := fun hr => by
  obtain ⟨ht, hu⟩ := k hr
  obtain ⟨hs, hi⟩ := h ht
  exact ⟨hs, hu.trans hi⟩

theorem Aside.inputsStand {s t : State} (h : Aside s t) : InputsStand s t := fun hr => ⟨h.inRun.symm.trans hr, h.ci⟩

theorem JudgeEffect.inputsStand {s t : State} (h : JudgeEffect s t) : InputsStand s t := fun hr => by
  obtain ⟨hs, q, rfl⟩ := h.of_inRun hr
  exact ⟨hs, rfl⟩

theorem inputsStand_of_ended {s t : State} (h : t.inRun = false) : InputsStand s t := fun hr => by
  rw [h] at hr
  cases hr

@[simp] theorem enterState_ci (n : Fin 24) (t : Nat) (s : State) : (enterState n t s).ci = s.ci := by
  unfold enterState
  split <;> simp

theorem beginSample_inputsStand {t : Nat} {s : State} (hr : s.inRun = true) : InputsStand s (beginSample t s) := by
  intro _
  refine ⟨hr, ?_⟩
  unfold beginSample
  split
  · exact enterState_ci _ t s
  · rfl

theorem judgeSampleEvents_inputsStand (count : Nat) (events : List BreakerEvent) (s : State) :
    InputsStand s (judgeSampleEvents count events s) :=
  ((assessBreakerEvents_assessed events _ _ s).aside.inputsStand.trans
    (judgeSample_effect count events _).inputsStand).trans fun hr => ⟨hr, rfl⟩

theorem runSample_inputsStand {count : Nat} {s : State} (hr : s.inRun = true) :
    InputsStand s (runSample count s).1 := by
  unfold runSample
  dsimp only
  split
  · exact inputsStand_of_ended (runEnd_inRun _ s)
  · exact ((beginSample_inputsStand hr).trans (computeSample_aside _ _).inputsStand).trans
      (judgeSampleEvents_inputsStand _ _ _)

theorem runElapsed_inputsStand {n count : Nat} {s : State} (hr : s.inRun = true) :
    InputsStand s (runElapsed n count s) := by
  induction n generalizing count s with
  | zero => exact fun _ => ⟨hr, rfl⟩
  | succ n ih =>
    have sampled : InputsStand s (runSample count s).1 := runSample_inputsStand hr
    cases hs : (runSample count s).1.inRun with
    | true =>
      rw [runElapsed_inRun hs]
      exact sampled.trans (ih hs)
    | false =>
      rw [runElapsed_ended hs]
      exact inputsStand_of_ended hs

/-- R152: a run start that leaves its run in progress leaves the contact inputs. -/
theorem startRun_ci {t0 : Nat} {internal : Bool} {s : State} {r : RunSettings} (hs : s.sq.settings = some r)
    (hr : (startRun t0 internal s).inRun = true) : (startRun t0 internal s).ci = s.ci := by
  have ready : (readyRun r t0 internal s).inRun = true := inRun_of_running (by simp)
  have entered : (enterState r.first 0 (readyRun r t0 internal s)).inRun = true :=
    (enterState_kept _ _ _ ready).inRun.trans ready
  have begun : (readyRun r t0 internal s).ci = s.ci := offer_ci _ _ _ _
  rw [startRun_eq t0 internal hs] at hr ⊢
  rw [(runElapsed_inputsStand entered hr).2, enterState_ci, begun]

end Sys2Proof.Machine

/-! # SYNC IN and the third candidate sample (R37, R38, R49, R50, R148) -/

namespace Sys2Proof.Machine

/-! ## The edge of SYNC IN handed on (R50, R148, R157) -/

theorem eventMatches_sync : eventMatches .sync (fun _ => false) = fun t => decide (t = .sync) := by
  funext t
  cases t <;> simp [eventMatches]

/-- R148: IDLE, POINTING, GAP and an arming for another trigger make nothing of the edge. -/
theorem handSync_unawaited {first te : Nat} {s : State} (hn : s.sq.state ≠ .running)
    (hw : ¬ (s.sq.state = .armed ∧ ∃ r, s.sq.settings = some r ∧ r.trigger = .sync)) : handSync first te s = s := by
  unfold handSync
  cases hs : s.sq.state with
  | running => exact absurd hs hn
  | idle | pointing | gap => rfl
  | armed =>
    cases hr : s.sq.settings with
    | none => rfl
    | some r => exact if_neg fun ht => hw ⟨hs, r, hr, ht⟩

theorem handSync_running {first te : Nat} {s : State} (hs : s.sq.state = .running) :
    handSync first te s = judgeEvent (fun t => decide (t = .sync)) te s := by
  simp only [handSync, hs, eventMatches_sync]

theorem handSync_awaited {first te : Nat} {s : State} {r : RunSettings} (hs : s.sq.state = .armed)
    (hr : s.sq.settings = some r) (ht : r.trigger = .sync) : handSync first te s = tryStart first false s := by
  simp only [handSync, hs, hr, ht, if_true]

/-! ## Its pending record (R47, log 16) -/

theorem putSync_self (s : State) : putSync s.ci.sync s = s := rfl

/-- SYNC IN has no pending record any more. -/
def dropSync (s : State) : State := putSync { s.ci.sync with pendingEdge := none } s

theorem dropSync_of_none {s : State} (h : s.ci.sync.pendingEdge = none) : dropSync s = s := by
  have same : ({ s.ci.sync with pendingEdge := none } : SyncInput) = s.ci.sync := by rw [← h]
  unfold dropSync
  rw [same, putSync_self]

/-- The state in which the edge is handed on, its record pending. -/
def syncPending (e : PendingEdge) (s : State) : State := putSync { s.ci.sync with pendingEdge := some e } s

section
variable {first : Nat} {noise : Bool} {glitches : Nat} {s u : State}
  (hu : handSync first (s.runTimeAt first) (syncPending ⟨.active, s.runTimeAt first, noise, glitches, false⟩ s) = u)
include hu

theorem deliverSync_outside (hr : u.inRun = false) : deliverSync first noise glitches s = dropSync u := by
  subst hu
  simp only [syncPending] at hr
  simp only [deliverSync, hr]
  rfl

/-- In a run the record is written, and the edge's fields are those of its delivery. -/
theorem deliverSync_inRun (hr : u.inRun = true)
    (he : u.ci.sync.pendingEdge = some ⟨.active, s.runTimeAt first, noise, glitches, false⟩) :
    deliverSync first noise glitches s =
      offerRun u.now (.inputEdge 0 .active (s.runTimeAt first) noise glitches 0 false) (dropSync u) := by
  have written := writePendingSync_some (t := u.now) he
  have sync : (writePendingSync u.now u).ci.sync.pendingEdge = none := by rw [written, offerRun_ci]; rfl
  have closed : deliverSync first noise glitches s = dropSync (writePendingSync u.now u) := by
    subst hu
    simp only [syncPending] at hr
    simp only [deliverSync, hr, if_true]
    rfl
  rw [closed, dropSync_of_none sync, written]
  rfl

end

/-! ## The row of SYNC IN (R49) -/

theorem exec_qualification_sync {s : State} (hr : s.resetLine = false) (hq : s.ci.sync.qualifier.ripe = true) :
    exec (.qualification 0) s = .next (settle (qualifySync s)) :=
  exec_due (b := qualificationDue 0 s) hr rfl hq

section
variable {first : Nat} {samples : List Bool} {s : State} (hq : s.ci.sync.qualifier = .candidate first samples)
  (hl : samples.length = 3)
include hq hl

theorem qualifySync_glitch (hn : differing s.ci.sync.settled samples ≤ 1) :
    qualifySync s =
      putSync { s.ci.sync with qualifier := .steady, glitches := min 255 (s.ci.sync.glitches + 1) } s := by
  have few : ¬ 2 ≤ differing s.ci.sync.settled samples := by omega
  simp only [qualifySync, hq, hl, if_true, few, if_false, bump255]

/-- An INACTIVE edge gives nothing more; an ACTIVE one is delivered. -/
theorem qualifySync_edge (hn : 2 ≤ differing s.ci.sync.settled samples) :
    let flipped := putSync { s.ci.sync with settled := !s.ci.sync.settled, glitches := 0, qualifier := .steady } s
    qualifySync s =
      if s.ci.sync.settled then flipped
      else deliverSync first (differing s.ci.sync.settled samples = 2) s.ci.sync.glitches flipped := by
  simp only [qualifySync, hq, hl, if_true, hn]

end

/-- SYNC IN after its edge, with this pending record. -/
def syncFlipped (s : State) (p : Option PendingEdge) : State :=
  putSync { s.ci.sync with settled := !s.ci.sync.settled, glitches := 0, qualifier := .steady, pendingEdge := p } s

/-- The edge of SYNC IN as it is handed on and recorded (R47, R50; log 32). -/
def syncEdge (first : Nat) (samples : List Bool) (s : State) : PendingEdge :=
  ⟨.active, s.runTimeAt first, differing s.ci.sync.settled samples = 2, s.ci.sync.glitches, false⟩

theorem syncPending_syncFlipped (e : PendingEdge) (p : Option PendingEdge) (s : State) :
    syncPending e (syncFlipped s p) = syncFlipped s (some e) := rfl

/-- The state to which the ACTIVE edge of SYNC IN leads, before its record. -/
def syncHanded (first : Nat) (samples : List Bool) (s : State) : State :=
  handSync first (s.runTimeAt first) (syncFlipped s (some (syncEdge first samples s)))

theorem syncHanded_eq (first : Nat) (samples : List Bool) (s : State) :
    handSync first (s.runTimeAt first) (syncPending (syncEdge first samples s) (syncFlipped s s.ci.sync.pendingEdge)) =
      syncHanded first samples s := by
  rw [syncPending_syncFlipped]
  rfl

section
variable {first : Nat} {samples : List Bool} {s : State} (hr : s.resetLine = false)
  (hq : s.ci.sync.qualifier = .candidate first samples) (hl : samples.length = 3)
  (hn : 2 ≤ differing s.ci.sync.settled samples) (hs : s.ci.sync.settled = false)
include hr hq hl hn hs

theorem exec_sync_active :
    exec (.qualification 0) s =
      .next (settle (deliverSync first (differing s.ci.sync.settled samples = 2) s.ci.sync.glitches
        (syncFlipped s s.ci.sync.pendingEdge))) := by
  rw [exec_qualification_sync hr ((ripe_iff _).2 ⟨first, samples, hq, hl⟩), qualifySync_edge hq hl hn,
    if_neg (Bool.eq_false_iff.1 hs)]
  rfl

/-- No run is in progress once the edge has been handed on. -/
theorem exec_sync_outside (ho : (syncHanded first samples s).inRun = false) :
    exec (.qualification 0) s = .next (settle (dropSync (syncHanded first samples s))) := by
  rw [exec_sync_active hr hq hl hn hs, deliverSync_outside (syncHanded_eq first samples s) ho]

/-- The run goes on, or has begun: the record is written. -/
theorem exec_sync_inRun (hi : (syncHanded first samples s).inRun = true)
    (hc : (syncHanded first samples s).ci = (syncFlipped s (some (syncEdge first samples s))).ci) :
    exec (.qualification 0) s =
      .next (settle (offerRun (syncHanded first samples s).now
        (.inputEdge 0 .active (s.runTimeAt first) (differing s.ci.sync.settled samples = 2) s.ci.sync.glitches 0 false)
        (dropSync (syncHanded first samples s)))) := by
  rw [exec_sync_active hr hq hl hn hs,
    deliverSync_inRun (syncHanded_eq first samples s) hi (by rw [hc]; rfl)]
  rfl

end

theorem inRun_eq_false {s : State} (h : s.sq.state ≠ .running ∧ s.sq.state ≠ .pointing) : s.inRun = false := by
  rw [Bool.eq_false_iff, ne_eq, inRun_iff]
  tauto

/-! ## The third candidate sample (O35) -/

section
variable {k : Fin 12} {first : Nat} {samples : List Bool} {s : State} (hr : s.resetLine = false)
  (hq : s.ci.inputs[k].qualifier = .candidate first samples) (hl : samples.length = 3)
include hr hq hl

/-- The row of a candidate whose edge waits for no sample 0. -/
theorem exec_qualification_now
    (hw : ¬ (2 ≤ differing s.ci.inputs[k].settled samples ∧ s.ci.inputs[k].settled = false ∧ commandWaits k s)) :
    exec (.qualification k.succ) s = .next (settle (qualifyInput k s)) := by
  rw [exec_qualification hr (ripe_of_candidate hq hl), firstSampleFirst_now]
  rw [qualifiesActive_iff hq hl]
  tauto

end

/-- Settles O35: an input by the number of differing samples and by what its edge finds; SYNC IN by the sequencer's
state; then the writing of a pending record. -/
theorem qualificationJudgesTheCandidate : Obligations.QualificationJudgesTheCandidate := by
  refine ⟨fun k first samples s hr hq hl => ?input, fun first samples s hr hq hl => ?sync, fun t k input s hi => ?write⟩
  case input =>
    intro x n direction edge p u waits
    refine ⟨fun hn => ?glitch, fun hn ho => ?outside, fun hn hi hw h0 => ?window, fun hn hi hw h0 => ?noWindow,
      fun hn hw => ?waits⟩
    case glitch =>
      rw [exec_qualification_now hr hq hl fun ⟨h2, _⟩ => absurd hn (Nat.not_le.2 h2), qualifyInput_glitch hq hl hn]
    case outside =>
      have still : ¬ commandWaits k s := fun hc => absurd (inRun_of_commandWaits hc) (Bool.eq_false_iff.1 ho)
      rw [exec_qualification_now hr hq hl fun ⟨_, _, hc⟩ => still hc, qualifyInput_outside hq hl hn ho]
      rfl
    case waits =>
      obtain ⟨hs, hc⟩ := hw
      exact ⟨exec_gridInstant_of_waits hr hc, not_commandWaits_gridInstant k s,
        exec_qualification_waits hr hq hl ((qualifiesActive_iff hq hl).2 ⟨hs, hn⟩) hc⟩
    all_goals
      have delivered : qualifyInput k s = if x.window = 0 then writePending u.now u k else u := by
        rw [qualifyInput_edge hq hl hn, ofLevel_not, pendingFor, if_pos hi]
        rfl
      rw [exec_qualification_now hr hq hl fun ⟨_, hs, hc⟩ => hw ⟨hs, hc⟩, delivered]
    case window => rw [if_neg (Nat.ne_of_gt h0)]
    case noWindow => rw [if_pos h0]
  case sync =>
    intro x n flipped edge recorded waits
    refine ⟨fun hn => ?glitch, fun hn hs => ?inactive, fun hn hs => ⟨fun hst => ?nothing, fun hst => ?pointing,
      fun hst => ?running, fun hst hw hfree => ?room, fun hst hw hfree => ?noRoom⟩⟩
    case glitch =>
      rw [exec_qualification_sync hr ((ripe_iff _).2 ⟨first, samples, hq, hl⟩), qualifySync_glitch hq hl hn]
    case inactive =>
      rw [exec_qualification_sync hr ((ripe_iff _).2 ⟨first, samples, hq, hl⟩), qualifySync_edge hq hl hn, if_pos hs]
    case nothing =>
      have off : (s.sq.state ≠ .running ∧ s.sq.state ≠ .pointing) ∧ ¬ (s.sq.state = .armed ∧ waits) := by
        obtain h | h | ⟨h, hw⟩ := hst
        · simp [h]
        · simp [h]
        · simp [h, hw]
      have still : syncHanded first samples s = flipped (some edge) :=
        handSync_unawaited (s := flipped (some edge)) off.1.1 off.2
      have out : (syncHanded first samples s).inRun = false := by
        rw [still]
        exact inRun_eq_false (s := s) off.1
      rw [exec_sync_outside hr hq hl hn hs out, still]
      rfl
    case pointing =>
      have still : syncHanded first samples s = flipped (some edge) :=
        handSync_unawaited (s := flipped (some edge)) (by simp [flipped, hst]) (by simp [flipped, hst])
      have inside : (syncHanded first samples s).inRun = true := by
        rw [still]
        exact inRun_of_pointing hst
      rw [exec_sync_inRun hr hq hl hn hs inside (by rw [still]; rfl), still]
      rfl
    case running =>
      intro u
      have judged : syncHanded first samples s = u := handSync_running hst
      rw [← judged]
      refine ⟨fun hu => ?_, exec_sync_outside hr hq hl hn hs⟩
      refine exec_sync_inRun hr hq hl hn hs hu ?_
      rw [judged] at hu ⊢
      exact ((judgeEvent_effect _ _ _).inputsStand hu).2
    case room =>
      intro u
      obtain ⟨r, hr', ht⟩ := hw
      have started : syncHanded first samples s = u :=
        (handSync_awaited (s := flipped (some edge)) hst hr' ht).trans (tryStart_room hfree)
      rw [← started]
      refine ⟨fun hu => ?_, exec_sync_outside hr hq hl hn hs⟩
      refine exec_sync_inRun hr hq hl hn hs hu ?_
      rw [started] at hu ⊢
      exact startRun_ci (s := flipped (some edge)) hr' hu
    case noRoom =>
      obtain ⟨r, hr', ht⟩ := hw
      have ended : syncHanded first samples s = waitEnded (flipped (some edge)) :=
        (handSync_awaited (s := flipped (some edge)) hst hr' ht).trans (tryStart_noRoom hfree)
      rw [exec_sync_outside hr hq hl hn hs (by rw [ended]; rfl), ended]
      rfl
  case write =>
    obtain rfl : input = k.succ := Fin.ext hi
    exact ⟨writePending_none, fun e => writePending_some⟩

end Sys2Proof.Machine

/-! # Trip and close commands (R99 to R107, R113, R114) -/

namespace Sys2Proof.Machine

/-! ## One pole and the whole breaker -/

section
variable {te : Nat} {p : Pole} {s : State}

theorem tripPole_closed (h : s.bs.poles.get p = .closed) :
    tripPole te s p = offerRun te (.breaker (.pole p) .tripAccepted none) (putPole p (.tripping te) s) := by
  simp only [tripPole, h]
  rfl

theorem tripPole_closing {start : Nat} (h : s.bs.poles.get p = .closing start) :
    tripPole te s p = offerRun te (.breaker (.pole p) .tripFree (some (te - start))) (putPole p .opened s) := by
  simp only [tripPole, h]
  rfl

theorem tripPole_other (h : s.bs.poles.get p = .opened ∨ (∃ a, s.bs.poles.get p = .tripping a) ∨
    (∃ a, s.bs.poles.get p = .arcing a)) : tripPole te s p = s := by
  obtain h | ⟨a, h⟩ | ⟨a, h⟩ := h <;> simp only [tripPole, h]

end

theorem any_iff {α : Type} (f : α → Bool) (x : PerPole α) : x.any f = true ↔ ∃ p, f (x.get p) = true := by
  simp only [PerPole.any, Bool.or_eq_true]
  constructor
  · rintro ((h | h) | h)
    · exact ⟨.a, h⟩
    · exact ⟨.b, h⟩
    · exact ⟨.c, h⟩
  · rintro ⟨_ | _ | _, h⟩
    · exact .inl (.inl h)
    · exact .inl (.inr h)
    · exact .inr h

theorem every_iff {α : Type} (f : α → Bool) (x : PerPole α) : x.every f = true ↔ ∀ p, f (x.get p) = true := by
  simp only [PerPole.every, Bool.and_eq_true]
  constructor
  · rintro ⟨⟨ha, hb⟩, hc⟩ (_ | _ | _)
    · exact ha
    · exact hb
    · exact hc
  · exact fun h => ⟨⟨h .a, h .b⟩, h .c⟩

/-- A pole under way, as R105 lists the positions. -/
theorem isMoving_iff_position (x : Position) :
    x.isMoving = true ↔ (∃ a, x = .tripping a) ∨ (∃ a, x = .arcing a) ∨ (∃ a, x = .closing a) := by
  cases x <;> simp [Position.isMoving]

/-- A pole is under way. -/
def Breaker.moves (bs : Breaker) : Prop := ∃ p, (bs.poles.get p).isMoving = true

/-- A pole is OPEN. -/
def Breaker.hasOpen (bs : Breaker) : Prop := ∃ p, bs.poles.get p = .opened

theorem closeVerdict_blocked {bs : Breaker} (h : bs.spring ≠ .charged) : closeVerdict bs = .blocked :=
  if_pos (Bool.eq_false_iff.2 fun hc => h ((isCharged_iff _).1 hc))

theorem closeVerdict_charged {bs : Breaker} (h : bs.spring = .charged) :
    closeVerdict bs =
      if bs.poles.any Position.isMoving then .refused
      else if bs.poles.any (fun p => p = .opened) then .accepted else .refused := by
  simp only [closeVerdict, h, Spring.isCharged, Bool.true_eq_false, if_false]

theorem moves_iff (bs : Breaker) : bs.poles.any Position.isMoving = true ↔ bs.moves := any_iff _ _

theorem hasOpen_iff (bs : Breaker) : bs.poles.any (fun p => p = .opened) = true ↔ bs.hasOpen := by
  simp [any_iff, Breaker.hasOpen]

theorem closeVerdict_refused {bs : Breaker} (h : bs.spring = .charged) (hm : bs.moves ∨ ¬ bs.hasOpen) :
    closeVerdict bs = .refused := by
  rw [closeVerdict_charged h]
  by_cases hmoves : bs.moves
  · exact if_pos ((moves_iff bs).2 hmoves)
  · rw [if_neg (fun h => hmoves ((moves_iff bs).1 h)),
      if_neg (fun h => hm.resolve_left hmoves ((hasOpen_iff bs).1 h))]

theorem closeVerdict_accepted {bs : Breaker} (h : bs.spring = .charged) (hm : ¬ bs.moves) (ho : bs.hasOpen) :
    closeVerdict bs = .accepted := by
  rw [closeVerdict_charged h, if_neg (fun h => hm ((moves_iff bs).1 h)), if_pos ((hasOpen_iff bs).2 ho)]

theorem closeVerdict_accepted_iff {bs : Breaker} :
    closeVerdict bs = .accepted ↔ bs.spring = .charged ∧ ¬ bs.moves ∧ bs.hasOpen := by
  refine ⟨fun h => ?_, fun ⟨hs, hm, ho⟩ => closeVerdict_accepted hs hm ho⟩
  by_contra hn
  by_cases hs : bs.spring = .charged
  · rw [closeVerdict_refused hs (by tauto)] at h
    cases h
  · rw [closeVerdict_blocked hs] at h
    cases h

theorem startClosing_eq (te : Nat) (x : Position) : startClosing te x = if x = .opened then .closing te else x := by
  cases x <;> rfl

section
variable {te : Nat} {s : State}

theorem closeBreaker_blocked (h : closeVerdict s.bs = .blocked) :
    closeBreaker te s = offerRun te (.breaker .mechanism .closeBlocked none) s := by
  simp only [closeBreaker, h]
  rfl

theorem closeBreaker_refused (h : closeVerdict s.bs = .refused) :
    closeBreaker te s = offerRun te (.breaker .mechanism .closeRefused none) s := by
  simp only [closeBreaker, h]
  rfl

theorem closeBreaker_accepted (h : closeVerdict s.bs = .accepted) :
    closeBreaker te s =
      offerRun te (.breaker .mechanism .closeAccepted none)
        { s with bs := { s.bs with poles := s.bs.poles.map (startClosing te), spring := .charging (some te) } } := by
  simp only [closeBreaker, h]
  rfl

end

/-! ## What each consumer of an edge does (R43 to R45) -/

theorem consumersInOrder_perm (order : Fin 6) :
    (consumersInOrder order).Perm [.breaker, .assessment, .sequencer] := by
  revert order
  decide

theorem consumeEdge_outside {s : State} (h : s.inRun = false) (input : Fin 13) (role : Role) (direction : Direction)
    (te : Nat) (x : Consumer) : consumeEdge input role direction te s x = s := by
  simp [consumeEdge, h]

theorem deliverEdge_inRun {s : State} (h : s.inRun = true) (input : Fin 13) (role : Role) (direction : Direction)
    (te : Nat) :
    deliverEdge input role direction te s =
      (consumersInOrder (Config.consumerOrder s.free)).foldl (consumeEdge input role direction te)
        { s with free := s.free + 1 } := if_pos h

section
variable {s : State} (h : s.inRun = true) (input : Fin 13) (role : Role) (te : Nat)
include h

theorem consumeEdge_breaker : consumeEdge input role .active te s .breaker = commandEdge role te s := by
  simp [consumeEdge, h]

theorem consumeEdge_breaker_inactive : consumeEdge input role .inactive te s .breaker = s := by
  simp [consumeEdge, h]

theorem consumeEdge_assessment (direction : Direction) :
    consumeEdge input role direction te s .assessment = assessEvent (.edge input direction) te s.now s := by
  simp [consumeEdge, h]

theorem consumeEdge_sequencer (direction : Direction) :
    consumeEdge input role direction te s .sequencer = sequenceEdge input direction te s := by
  simp [consumeEdge, h]

end

theorem eventMatches_plain {own : Trigger} (h : ∀ c, own ≠ .count c) :
    eventMatches own (fun _ => false) = fun t => decide (t = own) := by
  funext t
  cases t with
  | count c => simp [eventMatches, Ne.symm (h c)]
  | _ => rfl

theorem eventMatches_iff {own : Trigger} (h : ∀ c, own ≠ .count c) (zeroed : Fin 4 → Bool) (t : Trigger) :
    eventMatches own zeroed t = true ↔ t = own ∨ ∃ c, t = .count c ∧ zeroed c = true := by
  cases t with
  | count c => simp [eventMatches, Ne.symm (h c)]
  | _ => simp [eventMatches]

theorem zeroedBy_iff (source : CounterSource) (s : State) (c : Fin 4) :
    zeroedBy source s c = true ↔ s.st.sources[c] = source ∧ s.sq.counters[c] = 1 := by
  simp [zeroedBy]

/-! ## The events of one command (R113, R114) -/

/-- What the exits meet in the events of a command. -/
def commandMatches (counted : Option CounterSource) (events : List BreakerEvent) (s : State) : Trigger → Bool
  | .breaker e => events.contains e
  | .count c => counted = some s.st.sources[c] && s.sq.counters[c] = 1
  | _ => false

theorem commandMatches_iff (counted : Option CounterSource) (events : List BreakerEvent) (s : State) (t : Trigger) :
    commandMatches counted events s t = true ↔
      (∃ b ∈ events, t = .breaker b) ∨
        ∃ c : Fin 4, t = .count c ∧ counted = some s.st.sources[c] ∧ s.sq.counters[c] = 1 := by
  cases t <;> simp [commandMatches]

/-- The counters after the counted event of a command. -/
def countersAfter (counted : Option CounterSource) (s : State) : Vector Nat 4 :=
  .ofFn fun c => if counted = some s.st.sources[c] then s.sq.counters[c] - 1 else s.sq.counters[c]

theorem handCommandEvents_eq (counted : Option CounterSource) (events : List BreakerEvent) (te : Nat) (s : State) :
    handCommandEvents counted events te s =
      judgeEvent (commandMatches counted events s) te
        (assessBreakerEvents events te s.now { s with sq := { s.sq with counters := countersAfter counted s } }) := by
  cases counted with
  | none =>
    have same : countersAfter none s = s.sq.counters := by
      ext c hc
      simp [countersAfter]
    have matched : commandMatches none events s = fun t => match t with
        | .breaker e => events.contains e
        | .count _ => false
        | _ => false := by
      funext t
      cases t <;> simp [commandMatches]
    rw [same, matched]
    rfl
  | some source =>
    have matched : commandMatches (some source) events s = fun t => match t with
        | .breaker e => events.contains e
        | .count c => zeroedBy source s c
        | _ => false := by
      funext t
      cases t <;> simp [commandMatches, zeroedBy, eq_comm]
    have counters : countersAfter (some source) s = (decrementBy source s).sq.counters := by
      simp [countersAfter, decrementBy, eq_comm]
    rw [matched, counters]
    rfl

/-! ## The events of the positions (R113, R178) -/

theorem mem_newlyOpen (before after : PerPole Position) (p : Pole) :
    p ∈ newlyOpen before after ↔ after.get p = .opened ∧ before.get p ≠ .opened := by
  have listed : p ∈ poleOrder := by cases p <;> decide
  simp [newlyOpen, listed]

theorem newlyOpen_ne_nil (before after : PerPole Position) :
    newlyOpen before after ≠ [] ↔ ∃ p, after.get p = .opened ∧ before.get p ≠ .opened := by
  simp only [← mem_newlyOpen]
  exact ⟨List.exists_mem_of_ne_nil _, fun ⟨_, hp⟩ => List.ne_nil_of_mem hp⟩

section
variable (before after : PerPole Position)

theorem poleOpen_mem (p : Pole) :
    .poleOpen p ∈ poleEvents before after ↔ after.get p = .opened ∧ before.get p ≠ .opened := by
  rw [← mem_newlyOpen]
  simp [poleEvents]

theorem anyOpen_mem :
    .anyOpen ∈ poleEvents before after ↔
      (∃ p, after.get p = .opened ∧ before.get p ≠ .opened) ∧ ∀ p, before.get p ≠ .opened := by
  rw [← newlyOpen_ne_nil]
  simp [poleEvents, every_iff]

theorem allOpen_mem :
    .allOpen ∈ poleEvents before after ↔
      (∃ p, after.get p = .opened ∧ before.get p ≠ .opened) ∧ ∀ p, after.get p = .opened := by
  rw [← newlyOpen_ne_nil]
  simp [poleEvents, every_iff]

end

end Sys2Proof.Machine

/-! # The commands of an edge (O37) -/

namespace Sys2Proof.Machine

theorem tripsSome_iff (poles : List Pole) (bs : Breaker) :
    tripsSome poles bs = true ↔ ∃ p ∈ poles, bs.poles.get p = .closed := by
  simp [tripsSome]

/-- R99, R100: the command, its counted event and the events of its positions. -/
theorem commandTrip_eq (poles : List Pole) (te : Nat) (s : State) :
    commandTrip poles te s =
      handCommandEvents (if ∃ p ∈ poles, s.bs.poles.get p = .closed then some .tripAccepted else none)
        (poleEvents s.bs.poles (tripPoles poles te s).bs.poles) te (refreshOutputs true (tripPoles poles te s)) := by
  simp only [commandTrip, tripsSome_iff]
  rfl

section
variable {te : Nat} {s : State}

theorem commandClose_blocked (h : closeVerdict s.bs = .blocked) :
    commandClose te s = handCommandEvents none [.closeBlocked] te (refreshOutputs true (closeBreaker te s)) := by
  simp only [commandClose, h]
  rfl

theorem commandClose_refused (h : closeVerdict s.bs = .refused) :
    commandClose te s = handCommandEvents none [.closeRefused] te (refreshOutputs true (closeBreaker te s)) := by
  simp only [commandClose, h]
  rfl

theorem commandClose_accepted (h : closeVerdict s.bs = .accepted) :
    commandClose te s = handCommandEvents (some .closeAccepted) [] te (refreshOutputs true (closeBreaker te s)) := by
  simp only [commandClose, h]
  rfl

end

theorem sequenceEdge_inactive (input : Fin 13) (te : Nat) (s : State) :
    sequenceEdge input .inactive te s = judgeEvent (fun t => decide (t = .edge input .inactive)) te s := by
  rw [← eventMatches_plain (by simp)]
  rfl

/-- Settles O37: the two commands, the delivery, each consumer, the hand-over of a command's events, and which events these
are. -/
theorem commandsMoveTheBreaker : Obligations.CommandsMoveTheBreaker := by
  refine ⟨fun te p s => ⟨tripPole_closed, fun start => tripPole_closing, tripPole_other⟩, fun te s => ?close,
    fun input role direction te s => ⟨fun hr => ?outside, fun hr => ?inside⟩, fun input te s hr => ?consumers,
    fun counted events te s => ?handed, fun before after => ⟨poleOpen_mem before after, anyOpen_mem before after,
      allOpen_mem before after⟩, fun events time head s => ?assessed⟩
  case close =>
    intro moving anyMoving someOpen
    have moves : s.bs.moves ↔ anyMoving := exists_congr fun p => isMoving_iff_position _
    have refuses (hs : s.bs.spring = .charged) (hm : anyMoving ∨ ¬ someOpen) : closeVerdict s.bs = .refused :=
      closeVerdict_refused hs (hm.imp_left moves.2)
    have accepts (hs : s.bs.spring = .charged) (hm : ¬ anyMoving) (ho : someOpen) : closeVerdict s.bs = .accepted :=
      closeVerdict_accepted hs (fun h => hm (moves.1 h)) ho
    refine ⟨fun hs => closeBreaker_blocked (closeVerdict_blocked hs), fun hs hm => closeBreaker_refused (refuses hs hm),
      fun hs hm ho => ?moved, fun hr input => ⟨fun hs => ?_, fun hs hm => ?_, fun hs hm ho => ?_⟩⟩
    case moved =>
      rw [closeBreaker_accepted (accepts hs hm ho)]
      simp only [PerPole.map, startClosing_eq]
    all_goals rw [consumeEdge_breaker hr]
    · exact commandClose_blocked (closeVerdict_blocked hs)
    · exact commandClose_refused (refuses hs hm)
    · exact commandClose_accepted (accepts hs hm ho)
  case outside => exact ⟨deliverEdge_outside hr _ _ _ _, consumeEdge_outside hr _ _ _ _⟩
  case inside => exact ⟨_, consumersInOrder_perm _, deliverEdge_inRun hr _ _ _ _⟩
  case consumers =>
    intro trip
    have tripped (role : Role) (hc : commandEdge role te s = commandTrip role.tripPoles te s) :
        consumeEdge input role .active te s .breaker = trip role.tripPoles (tripPoles role.tripPoles te s) := by
      rw [consumeEdge_breaker hr, hc, commandTrip_eq]
    refine ⟨tripped .tripA rfl, tripped .tripB rfl, tripped .tripC rfl, tripped .trip3P rfl,
      consumeEdge_breaker hr _ _ _, fun role => ⟨consumeEdge_breaker_inactive hr _ _ _, consumeEdge_assessment hr _ _ _,
        ?inactive, eventMatches (.edge input .active) (zeroedBy (.edge input) s), ?active, ?matched⟩⟩
    case inactive => rw [consumeEdge_sequencer hr, sequenceEdge_inactive]
    case active => exact consumeEdge_sequencer hr _ _ _ _
    case matched =>
      intro t
      rw [eventMatches_iff (by simp)]
      simp only [zeroedBy_iff]
  case handed => exact ⟨_, handCommandEvents_eq counted events te s, commandMatches_iff counted events s⟩
  case assessed =>
    unfold assessBreakerEvents
    congr 1
    funext u b
    cases b <;> simp [BreakerEvent.subject]

end Sys2Proof.Machine

/-! # Counters and the consumers of an edge (R43, R45, R156, R157)

A consumer's reaction lets no counter rise, leaves the state table and begins no run (`Reaction`). Before its own consumer
acts, an edge therefore leaves a counter at 1 or at 0; the consumer that hands the counted event brings it to 0, unless the
run has ended before. -/

namespace Sys2Proof.Machine

/-! ## What every consumer keeps -/

structure Reaction (s t : State) : Prop where
  counters : ∀ c : Fin 4, t.sq.counters[c] ≤ s.sq.counters[c]
  table : t.st = s.st
  run : t.inRun = true → s.inRun = true

theorem Reaction.refl (s : State) : Reaction s s := ⟨fun _ => le_refl _, rfl, id⟩

theorem Reaction.trans {s t u : State} (h : Reaction s t) (k : Reaction t u) : Reaction s u :=
  ⟨fun c => (k.counters c).trans (h.counters c), k.table.trans h.table, h.run ∘ k.run⟩

theorem Aside.reaction {s t : State} (h : Aside s t) (table : t.st = s.st) : Reaction s t :=
  ⟨fun c => by rw [h.sq], table, fun hr => h.inRun.symm.trans hr⟩

theorem Assessed.reaction {s t : State} (h : Assessed s t) : Reaction s t := h.aside.reaction h.st

theorem JudgeEffect.reaction {s t : State} (h : JudgeEffect s t) : Reaction s t := by
  refine ⟨fun c => by rw [h.counters], ?_, fun hr => (h.of_inRun hr).1⟩
  cases h with
  | moved q _ _ => rfl
  | ended q _ => exact runEnd_st _ _

theorem countersAfter_get (counted : Option CounterSource) (s : State) (c : Fin 4) :
    (countersAfter counted s)[c] =
      if counted = some s.st.sources[c] then s.sq.counters[c] - 1 else s.sq.counters[c] := by
  simp [countersAfter]

theorem countersAfter_le (counted : Option CounterSource) (s : State) (c : Fin 4) :
    (countersAfter counted s)[c] ≤ s.sq.counters[c] := by
  rw [countersAfter_get]
  split
  · exact Nat.sub_le _ _
  · exact le_refl _

/-- A counter at 1 or 0 whose source is the counted event comes to 0. -/
theorem countersAfter_zero {source : CounterSource} {s : State} {c : Fin 4} (hs : s.st.sources[c] = source)
    (h1 : s.sq.counters[c] ≤ 1) : (countersAfter (some source) s)[c] = 0 := by
  rw [countersAfter_get, if_pos (congrArg some hs.symm)]
  exact Nat.sub_eq_zero_of_le h1

/-- The counted event decrements its counters. -/
def counted (source : Option CounterSource) (s : State) : State :=
  { s with sq := { s.sq with counters := countersAfter source s } }

theorem counted_reaction (source : Option CounterSource) (s : State) : Reaction s (counted source s) :=
  ⟨countersAfter_le source s, rfl, id⟩

theorem decrementBy_eq (source : CounterSource) (s : State) : decrementBy source s = counted (some source) s := by
  simp [decrementBy, counted, countersAfter, eq_comm]

theorem handCommandEvents_counters (source : Option CounterSource) (events : List BreakerEvent) (te : Nat) (s : State) :
    (handCommandEvents source events te s).sq.counters = countersAfter source s := by
  rw [handCommandEvents_eq, (judgeEvent_effect _ _ _).counters, (assessBreakerEvents_assessed _ _ _ _).sq]

theorem handCommandEvents_reaction (source : Option CounterSource) (events : List BreakerEvent) (te : Nat) (s : State) :
    Reaction s (handCommandEvents source events te s) := by
  rw [handCommandEvents_eq]
  exact ((counted_reaction source s).trans (assessBreakerEvents_assessed _ _ _ _).reaction).trans
    (judgeEvent_effect _ _ _).reaction

theorem tripPole_aside (te : Nat) (s : State) (p : Pole) : Aside s (tripPole te s p) := by
  unfold tripPole
  split
  · exact movePole_aside ..
  · exact .refl s
  · exact .refl s
  · exact .refl s
  · exact movePole_aside ..

/-- The trip command's own work, before its events are handed on. -/
theorem tripped_aside (poles : List Pole) (te : Nat) (s : State) :
    Aside s (refreshOutputs true (tripPoles poles te s)) :=
  (Aside.fold (tripPole_aside te) poles s).trans (refreshOutputs_aside _ _)

theorem tripped_table (poles : List Pole) (te : Nat) (s : State) :
    (refreshOutputs true (tripPoles poles te s)).st = s.st := (tripPoles_fixed poles te s).table

/-- The close command's own work. -/
theorem closed_aside (te : Nat) (s : State) : Aside s (refreshOutputs true (closeBreaker te s)) := by
  refine Aside.trans ?_ (refreshOutputs_aside _ _)
  unfold closeBreaker
  split
  · exact offerRun_aside _ _ s
  · exact offerRun_aside _ _ s
  · exact ⟨offerRun_ci _ _ _, offerRun_sq _ _ _⟩

theorem closed_table (te : Nat) (s : State) : (refreshOutputs true (closeBreaker te s)).st = s.st :=
  (closeBreaker_fixed te s).table

theorem commandTrip_reaction (poles : List Pole) (te : Nat) (s : State) : Reaction s (commandTrip poles te s) := by
  rw [commandTrip_eq]
  exact ((tripped_aside poles te s).reaction (tripped_table poles te s)).trans (handCommandEvents_reaction _ _ _ _)

theorem commandClose_reaction (te : Nat) (s : State) : Reaction s (commandClose te s) :=
  ((closed_aside te s).reaction (closed_table te s)).trans (handCommandEvents_reaction _ _ _ _)

theorem commandEdge_reaction (role : Role) (te : Nat) (s : State) : Reaction s (commandEdge role te s) := by
  cases role with
  | timing => exact .refl s
  | close => exact commandClose_reaction te s
  | tripA | tripB | tripC | trip3P => exact commandTrip_reaction _ te s

theorem sequenceEdge_active (input : Fin 13) (te : Nat) (s : State) :
    sequenceEdge input .active te s =
      judgeEvent (eventMatches (.edge input .active) (zeroedBy (.edge input) s)) te (counted (some (.edge input)) s) := by
  rw [← decrementBy_eq]
  rfl

section
variable (input : Fin 13) (role : Role) (te : Nat) (s : State)

theorem consumeEdge_reaction (x : Consumer) : Reaction s (consumeEdge input role .active te s x) := by
  cases hr : s.inRun with
  | false => rw [consumeEdge_outside hr]; exact .refl s
  | true =>
    cases x with
    | breaker => rw [consumeEdge_breaker hr]; exact commandEdge_reaction role te s
    | assessment => rw [consumeEdge_assessment hr]; exact (assessEvent_assessed _ _ _ s).reaction
    | sequencer =>
      rw [consumeEdge_sequencer hr, sequenceEdge_active]
      exact (counted_reaction _ s).trans (judgeEvent_effect _ _ _).reaction

/-- The assessment unit and the sequencer leave the breaker while the run goes on. -/
theorem consumeEdge_bs {x : Consumer} (hx : x ≠ .breaker) (ht : (consumeEdge input role .active te s x).inRun = true) :
    (consumeEdge input role .active te s x).bs = s.bs := by
  have hr : s.inRun = true := (consumeEdge_reaction input role te s x).run ht
  cases x with
  | breaker => exact absurd rfl hx
  | assessment => rw [consumeEdge_assessment hr]; exact (assessEvent_assessed _ _ _ s).bs
  | sequencer =>
    rw [consumeEdge_sequencer hr, sequenceEdge_active] at ht ⊢
    obtain ⟨-, q, hq⟩ := (judgeEvent_effect _ _ _).of_inRun ht
    rw [hq]
    rfl

end

/-! ## The consumer that hands the counted event -/

/-- The counter's source is an event that an ACTIVE edge of this input and role gives now (R45, R100, R106). -/
def edgeCounts (c : Fin 4) (input : Fin 13) (role : Role) (s : State) : Prop :=
  s.st.sources[c] = .edge input ∨ (s.st.sources[c] = .tripAccepted ∧ tripsSome role.tripPoles s.bs = true) ∨
    (s.st.sources[c] = .closeAccepted ∧ role = .close ∧ closeVerdict s.bs = .accepted)

section
variable {c : Fin 4} {input : Fin 13} {role : Role} {te : Nat} {s : State} (hr : s.inRun = true)
  (h1 : s.sq.counters[c] ≤ 1)
include hr h1

theorem consumeEdge_sequencer_zero (hs : s.st.sources[c] = .edge input) :
    (consumeEdge input role .active te s .sequencer).sq.counters[c] = 0 := by
  rw [consumeEdge_sequencer hr, sequenceEdge_active, (judgeEvent_effect _ _ _).counters]
  exact countersAfter_zero hs h1

theorem consumeEdge_trip_zero (hs : s.st.sources[c] = .tripAccepted) (ht : tripsSome role.tripPoles s.bs = true) :
    (consumeEdge input role .active te s .breaker).sq.counters[c] = 0 := by
  have command : commandEdge role te s = commandTrip role.tripPoles te s := by
    cases role with
    | timing | close => cases ht
    | tripA | tripB | tripC | trip3P => rfl
  rw [consumeEdge_breaker hr, command, commandTrip_eq, if_pos ((tripsSome_iff _ _).1 ht), handCommandEvents_counters]
  refine countersAfter_zero ?_ ?_
  · rw [tripped_table, hs]
  · rw [(tripped_aside _ _ _).sq]
    exact h1

theorem consumeEdge_close_zero (hs : s.st.sources[c] = .closeAccepted) (hc : role = .close)
    (hv : closeVerdict s.bs = .accepted) : (consumeEdge input role .active te s .breaker).sq.counters[c] = 0 := by
  subst hc
  rw [consumeEdge_breaker hr]
  show (commandClose te s).sq.counters[c] = 0
  rw [commandClose_accepted hv, handCommandEvents_counters]
  refine countersAfter_zero ?_ ?_
  · rw [closed_table, hs]
  · rw [(closed_aside _ _).sq]
    exact h1

end

/-! ## The whole delivery -/

/-- A fold that meets `x` once: `P` holds until then, `Z` from then on. -/
theorem foldl_reaches {α β : Type} {f : β → α → β} {P Z : β → Prop} {x : α} (before : ∀ u y, y ≠ x → P u → P (f u y))
    (at_x : ∀ u, P u → Z (f u x)) (after : ∀ u y, Z u → Z (f u y)) (l : List α) (u : β) (hx : x ∈ l) (hu : P u) :
    Z (l.foldl f u) := by
  induction l generalizing u with
  | nil => cases hx
  | cons y l ih =>
    by_cases hy : y = x
    · subst hy
      exact List.foldlRecOn l f (at_x u hu) fun v hv z _ => after v z hv
    · exact ih _ ((List.mem_cons.1 hx).resolve_left (Ne.symm hy)) (before u y hy hu)

theorem mem_consumersInOrder (order : Fin 6) (x : Consumer) : x ∈ consumersInOrder order := by
  rw [(consumersInOrder_perm order).mem_iff]
  cases x <;> decide

section
variable {c : Fin 4} {input : Fin 13} {role : Role} {te : Nat} {s : State} (hr : s.inRun = true)
  (h1 : s.sq.counters[c] ≤ 1)
include hr h1

/-- A consumer that brings the counter to 0, wherever it stands in the order, does so unless the run ends before. -/
theorem deliverEdge_zeroes_by (x : Consumer)
    (zero : ∀ u : State, u.inRun = true → u.sq.counters[c] ≤ 1 → u.st = s.st → (x = .breaker → u.bs = s.bs) →
      (consumeEdge input role .active te u x).sq.counters[c] = 0)
    (ht : (deliverEdge input role .active te s).inRun = true) :
    (deliverEdge input role .active te s).sq.counters[c] = 0 := by
  rw [deliverEdge_inRun hr] at ht ⊢
  refine foldl_reaches (x := x)
    (P := fun u : State => u.inRun = true → u.sq.counters[c] ≤ 1 ∧ u.st = s.st ∧ (x = .breaker → u.bs = s.bs))
    (Z := fun u : State => u.inRun = true → u.sq.counters[c] = 0) (fun u y hy hu hrun => ?before) (fun u hu hrun => ?at_x)
    (fun u y hu hrun => ?after) _ _ (mem_consumersInOrder _ x) (fun _ => ⟨h1, rfl, fun _ => rfl⟩) ht
  all_goals have react := fun y => consumeEdge_reaction input role te u y
  case before =>
    obtain ⟨low, table, bs⟩ := hu ((react y).run hrun)
    refine ⟨((react y).counters c).trans low, (react y).table.trans table, fun hx => ?_⟩
    exact (consumeEdge_bs input role te u (hx ▸ hy) hrun).trans (bs hx)
  case at_x =>
    have on := (react x).run hrun
    obtain ⟨low, table, bs⟩ := hu on
    exact zero u on low table bs
  case after => exact Nat.le_zero.1 (((react y).counters c).trans (hu ((react y).run hrun)).le)

/-- R156: a counter that the edge counts at 1 is 0 after the delivery, unless the run has ended. -/
theorem deliverEdge_zeroes (he : edgeCounts c input role s) (ht : (deliverEdge input role .active te s).inRun = true) :
    (deliverEdge input role .active te s).sq.counters[c] = 0 := by
  obtain hs | ⟨hs, hp⟩ | ⟨hs, hc, hv⟩ := he
  · exact deliverEdge_zeroes_by hr h1 .sequencer
      (fun u on low table _ => consumeEdge_sequencer_zero on low (by rw [table]; exact hs)) ht
  · exact deliverEdge_zeroes_by hr h1 .breaker
      (fun u on low table bs => consumeEdge_trip_zero on low (by rw [table]; exact hs) (by rw [bs rfl]; exact hp)) ht
  · exact deliverEdge_zeroes_by hr h1 .breaker
      (fun u on low table bs => consumeEdge_close_zero on low (by rw [table]; exact hs) hc (by rw [bs rfl]; exact hv)) ht

end

/-- The edge of a TIMING input: no consumer before the sequencer can end the run. -/
theorem deliverEdge_timing_zero {c : Fin 4} {input : Fin 13} {te : Nat} {s : State} (hr : s.inRun = true)
    (h1 : s.sq.counters[c] ≤ 1) (hs : s.st.sources[c] = .edge input) :
    (deliverEdge input .timing .active te s).sq.counters[c] = 0 := by
  rw [deliverEdge_inRun hr]
  refine foldl_reaches (x := .sequencer)
    (P := fun u : State => u.inRun = true ∧ u.sq.counters[c] ≤ 1 ∧ u.st = s.st)
    (Z := fun u : State => u.sq.counters[c] = 0) (fun u y hy ⟨on, low, table⟩ => ?before)
    (fun u ⟨on, low, table⟩ => consumeEdge_sequencer_zero on low (by rw [table]; exact hs))
    (fun u y hu => Nat.le_zero.1 (((consumeEdge_reaction input .timing te u y).counters c).trans hu.le)) _ _
    (mem_consumersInOrder _ _) ⟨hr, h1, rfl⟩
  cases y with
  | sequencer => exact absurd rfl hy
  | breaker => rw [consumeEdge_breaker on]; exact ⟨on, low, table⟩
  | assessment =>
    rw [consumeEdge_assessment on]
    have assessed := assessEvent_assessed (.edge input .active) te u.now u
    exact ⟨assessed.aside.inRun.trans on, (assessed.reaction.counters c).trans low, assessed.st.trans table⟩

end Sys2Proof.Machine

/-! # The counter of an entry (R154 steps 3 and 4, R156)

The entry loads the counter and decrements it. Nothing else of the grid instant touches it, a run end at a lost link
included. -/

namespace Sys2Proof.Machine

/-! ## What leaves the counters -/

theorem groupLeftReady_counters (s : State) : (groupLeftReady s).sq.counters = s.sq.counters := by
  unfold groupLeftReady
  split
  · exact runEnd_counters _ s
  · exact runEnd_counters _ s
  · rfl
  · rfl
  · rfl

theorem enterFault_counters (g : Group) (cause : AmpEvent) (s : State) :
    (enterFault g cause s).sq.counters = s.sq.counters := by
  unfold enterFault
  dsimp only
  split
  · rw [groupLeftReady_counters]
    simp
  · simp

theorem settleMissed_counters (g : Group) (s : State) : (settleMissed g s).sq.counters = s.sq.counters := by
  unfold settleMissed
  dsimp only
  split
  · split
    · exact enterFault_counters _ _ _
    · rfl
  · rfl

theorem frameInstant_counters (g : Group) (codes : Vector Int 8) (s : State) :
    (frameInstant g codes s).sq.counters = s.sq.counters := by
  rw [← settleMissed_counters g s]
  unfold frameInstant sendFrame
  dsimp only
  split
  · rfl
  · rfl

theorem gridInstant_counters (s : State) :
    (gridInstant s).sq.counters = (gridSample (takeGrid s)).1.sq.counters :=
  (frameInstant_counters _ _ _).trans (frameInstant_counters _ _ _)

theorem judgeSampleEvents_counters (count : Nat) (events : List BreakerEvent) (s : State) :
    (judgeSampleEvents count events s).sq.counters = s.sq.counters := by
  have assessed := assessBreakerEvents_assessed events (s.runTimeAt count) (s.runTimeAt count) s
  exact (judgeSample_effect count events _).counters.trans (by rw [assessed.sq])

/-- A sample that no run end takes leaves the counters as the entry due at it has set them. -/
theorem runSample_counters {count : Nat} {s : State} (h : sampleEnd (s.runTimeAt count) s = none) :
    (runSample count s).1.sq.counters = (beginSample (s.runTimeAt count) s).sq.counters := by
  unfold runSample
  simp only [h]
  rw [judgeSampleEvents_counters, (computeSample_aside _ _).sq]

/-! ## The entry -/

theorem enterState_counters {n : Fin 24} {t : Nat} {e : Entry} {s : State} (he : s.st.entries[n] = some e) (c : Fin 4) :
    (enterState n t s).sq.counters[c] =
      if s.st.sources[c] = .entry n then (e.loads[c]).getD s.sq.counters[c] - 1
      else (e.loads[c]).getD s.sq.counters[c] := by
  unfold enterState
  simp only [he]
  simp [setGuard, countVisit, decrementBy, loadCounters]

/-- The state entered at the grid instant is the counter's source, and the counter comes from 1. -/
def entryCounts (c : Fin 4) (s : State) : Prop :=
  ∃ n e, entryDue s = some n ∧ s.st.entries[n] = some e ∧ s.st.sources[c] = .entry n ∧
    (e.loads[c]).getD s.sq.counters[c] = 1

theorem entryZeroes_iff {c : Fin 4} {s : State} (hr : s.resetLine = false) :
    entryZeroes c s = true ↔ sampleHere s ∧ entryCounts c s := by
  rw [← sampleDue_iff hr]
  unfold entryZeroes entryCounts
  cases hn : entryDue s with
  | none => simp
  | some n =>
    simp only [Option.some.injEq, exists_and_left, exists_eq_left']
    cases s.st.entries[n] with
    | none => simp
    | some e => simp

theorem gridInstant_zeroes {c : Fin 4} {s : State} (hs : sampleHere s) (hc : entryCounts c s) :
    (gridInstant s).sq.counters[c] = 0 := by
  obtain ⟨-, -, hrun, hnone⟩ := hs
  obtain ⟨n, e, hn, he, hsource, hone⟩ := hc
  have taken : (takeGrid s).inRun = true := hrun
  have due : entryDue (takeGrid s) = some n := hn
  have whole : sampleEnd ((takeGrid s).runTimeAt (takeGrid s).count) (takeGrid s) = none := hnone
  rw [gridInstant_counters, gridSample, if_pos taken, runSample_counters whole]
  simp only [beginSample, due]
  rw [enterState_counters (s := takeGrid s) he]
  exact (if_pos hsource).trans (Nat.sub_eq_zero_of_le hone.le)

end Sys2Proof.Machine

/-! # The step that decrements a counter to zero (O51)

A step that delivers an ACTIVE edge ends as the delivery does, as far as the sequencer goes (`Delivers`); the rest is the
grid instant's entry. The row is the row it names where the edge or the entry finds the counter at 1. -/

namespace Sys2Proof.Machine

/-! ## What the edge meets -/

theorem edgeZeroes_iff (c : Fin 4) (k : Fin 12) (s : State) :
    edgeZeroes c k s = true ↔
      (firstSampleFirst k true s).inRun = true ∧ (firstSampleFirst k true s).sq.counters[c] = 1 ∧
        edgeCounts c k.succ (firstSampleFirst k true s).ci.inputs[k].role (firstSampleFirst k true s) := by
  simp only [edgeZeroes, edgeCounts, inputNumber, Bool.and_eq_true, Bool.or_eq_true, zeroedBy_iff, decide_eq_true_eq]
  tauto

theorem tripsSome_role (role : Role) (bs : Breaker) :
    tripsSome role.tripPoles bs = true ↔ ∃ p, bs.poles.get p = .closed ∧
      (role = .trip3P ∨ (role = .tripA ∧ p = .a) ∨ (role = .tripB ∧ p = .b) ∨ (role = .tripC ∧ p = .c)) := by
  have commanded (p : Pole) : p ∈ role.tripPoles ↔
      role = .trip3P ∨ (role = .tripA ∧ p = .a) ∨ (role = .tripB ∧ p = .b) ∨ (role = .tripC ∧ p = .c) := by
    cases role with
    | timing | close => simp [Role.tripPoles]
    | trip3P => cases p <;> simp [Role.tripPoles]
    | tripA | tripB | tripC => simp [Role.tripPoles]
  simp only [tripsSome_iff, commanded, and_comm]

/-- R107: a close command is accepted where the spring is charged, a pole is OPEN and the others are at rest. -/
theorem closeAccepted_iff (bs : Breaker) :
    closeVerdict bs = .accepted ↔ bs.spring = .charged ∧ (∃ p, bs.poles.get p = .opened) ∧
      ∀ p, bs.poles.get p = .closed ∨ bs.poles.get p = .opened := by
  have atRest : ¬ bs.moves ↔ ∀ p, bs.poles.get p = .closed ∨ bs.poles.get p = .opened := by
    simp only [Breaker.moves, isMoving_iff, not_exists, not_and_or, not_ne_iff]
  rw [closeVerdict_accepted_iff, atRest, and_comm (a := ∀ _, _)]
  rfl

theorem differing_inactive (samples : List Bool) :
    differing false samples = (samples.filter (fun l => l = true)).length := by
  simp [differing]

theorem qualifiesActive_iff_candidate (k : Fin 12) (s : State) :
    qualifiesActive k s = true ↔ s.ci.inputs[k].settled = false ∧
      ∃ first samples, s.ci.inputs[k].qualifier = .candidate first samples ∧ samples.length = 3 ∧
        2 ≤ (samples.filter (fun l => l = true)).length := by
  simp only [← differing_inactive]
  constructor
  · intro h
    unfold qualifiesActive at h
    dsimp only at h
    cases hq : s.ci.inputs[k].qualifier with
    | steady => rw [hq] at h; cases h
    | window last => rw [hq] at h; cases h
    | candidate first samples =>
      rw [hq] at h
      simp only [Bool.and_eq_true, Bool.not_eq_true', decide_eq_true_eq] at h
      obtain ⟨⟨hl, hs⟩, hn⟩ := h
      exact ⟨hs, first, samples, rfl, hl, hs ▸ hn⟩
  · rintro ⟨hs, first, samples, hq, hl, hn⟩
    exact (qualifiesActive_iff hq hl).2 ⟨hs, hs ▸ hn⟩

/-! ## A step that delivers an ACTIVE edge -/

/-- The sequencer of `t` is that of a delivery of an ACTIVE edge of BI(k+1) from `v`'s sequencer, table and breaker. -/
def Delivers (k : Fin 12) (v t : State) : Prop :=
  ∃ te w, w.sq = v.sq ∧ w.st = v.st ∧ w.bs = v.bs ∧
    t.sq = (deliverEdge k.succ v.ci.inputs[k].role .active te w).sq

theorem delivers_edge (k : Fin 12) (x : ContactInput) (te : Nat) (v : State) :
    Delivers k v (deliverEdge k.succ v.ci.inputs[k].role .active te (putInput k x v)) :=
  ⟨te, putInput k x v, rfl, rfl, rfl, rfl⟩

section
variable {k : Fin 12} {c : Fin 4} {v t : State} (h : Delivers k v t)
include h

theorem Delivers.of_sq {u : State} (hu : u.sq = t.sq) : Delivers k v u := by
  obtain ⟨te, w, sq, st, bs, ht⟩ := h
  exact ⟨te, w, sq, st, bs, hu.trans ht⟩

theorem Delivers.settle : Delivers k v (settle t) := h.of_sq (settle_parts t).1

theorem Delivers.zero (hr : v.inRun = true) (h1 : v.sq.counters[c] = 1)
    (he : edgeCounts c k.succ v.ci.inputs[k].role v) : t.sq.counters[c] = 0 ∨ t.inRun = false := by
  obtain ⟨te, w, sq, st, bs, ht⟩ := h
  have run : w.inRun = true := by rw [← hr]; simp only [State.inRun, sq]
  have low : w.sq.counters[c] ≤ 1 := by rw [sq]; exact h1.le
  have counts : edgeCounts c k.succ v.ci.inputs[k].role w := by
    unfold edgeCounts
    rw [st, bs]
    exact he
  cases hrun : t.inRun with
  | false => exact .inr rfl
  | true =>
    refine .inl ?_
    rw [ht]
    refine deliverEdge_zeroes run low counts ?_
    rw [← hrun]
    simp only [State.inRun, ht]

/-- R45: a TIMING input. -/
theorem Delivers.timing_zero (hr : v.inRun = true) (h1 : v.sq.counters[c] = 1)
    (hs : v.st.sources[c] = .edge k.succ) (hrole : v.ci.inputs[k].role = .timing) : t.sq.counters[c] = 0 := by
  obtain ⟨te, w, sq, st, -, ht⟩ := h
  have run : w.inRun = true := by rw [← hr]; simp only [State.inRun, sq]
  rw [ht, hrole]
  exact deliverEdge_timing_zero run (by rw [sq]; exact h1.le) (by rw [st]; exact hs)

end

theorem writePending_sq (t : Nat) (s : State) (k : Fin 12) : (writePending t s k).sq = s.sq := by
  cases h : s.ci.inputs[k].pendingEdge with
  | none => rw [writePending_none h]
  | some e => rw [writePending_some h]; exact offerRun_sq _ _ _

theorem windowClosed_parts (k : Fin 12) (s : State) :
    (windowClosed k s).sq = s.sq ∧ (windowClosed k s).st = s.st ∧ (windowClosed k s).bs = s.bs := by
  unfold windowClosed
  split
  · exact ⟨offerRun_sq _ _ _, offerRun_st _ _ _, offerRun_bs _ _ _⟩
  · exact ⟨rfl, rfl, rfl⟩

section
variable (k : Fin 12) (active : Bool) (s : State)

/-- R117: sample 0 leaves the input, but for a record that waits. -/
theorem firstSampleFirst_input :
    ∃ e, (firstSampleFirst k active s).ci.inputs[k] = { s.ci.inputs[k] with pendingEdge := e } := by
  obtain ⟨-, -, -, h⟩ | h := firstSampleFirst_cases k active s
  · rw [h]
    exact gridInstant_input k s
  · rw [h]
    exact ⟨_, rfl⟩

end

section
variable {k : Fin 12} {s : State} (hr : s.resetLine = false)
include hr

theorem qualification_delivers (ha : qualifiesActive k s = true) :
    ∃ t, exec (.qualification k.succ) s = .next t ∧ Delivers k (firstSampleFirst k true s) t := by
  obtain ⟨hs, first, samples, hq, hl, hn⟩ := (qualifiesActive_iff_candidate k s).1 ha
  rw [exec_qualification hr (ripe_of_candidate hq hl), ha]
  refine ⟨_, rfl, Delivers.settle ?_⟩
  obtain ⟨e, he⟩ := firstSampleFirst_input k true s
  have hq' : (firstSampleFirst k true s).ci.inputs[k].qualifier = .candidate first samples := by rw [he]; exact hq
  have hs' : (firstSampleFirst k true s).ci.inputs[k].settled = false := by rw [he]; exact hs
  rw [qualifyInput_edge hq' hl (by rw [hs', differing_inactive]; exact hn)]
  have rising : Direction.ofLevel (!(firstSampleFirst k true s).ci.inputs[k].settled) = .active := by rw [hs']; rfl
  rw [rising]
  split
  · exact (delivers_edge _ _ _ _).of_sq (writePending_sq _ _ _)
  · exact delivers_edge _ _ _ _

theorem windowEnd_delivers (ha : rechecksActive k s = true) :
    ∃ t, exec (.windowEnd k.succ) s = .next t ∧ Delivers k (firstSampleFirst k true s) t := by
  obtain ⟨hd, hs, hm⟩ := rechecksActive_iff.1 ha
  rw [exec_windowEnd hr hd, ha]
  refine ⟨_, rfl, Delivers.settle ?_⟩
  obtain ⟨e, he⟩ := firstSampleFirst_input k true s
  have rises : presentMajority (firstSampleFirst k true s).ci.inputs[k].polarity
      (firstSampleFirst k true s).ci.inputs[k].history = true := by rw [he]; exact hm
  have low : (firstSampleFirst k true s).ci.inputs[k].settled = false := by rw [he]; exact hs
  obtain ⟨sq, st, bs⟩ := windowClosed_parts k (firstSampleFirst k true s)
  rw [endWindow_recheck (by rw [rises, low]; decide)]
  exact ⟨_, putInput k _ (windowClosed k _), sq, st, bs, by rw [rises]; rfl⟩

end

/-- R42: the edge of an INJECT that is carried out in a run. -/
theorem injectEdge_delivers {k : Fin 12} {s : State} (hs : s.ci.inputs[k].settled = false) (hr : s.inRun = true) :
    Delivers k s (injectEdge k true s) := by
  rw [injectEdge_delivered (by rw [hs]; decide) hr]
  exact (delivers_edge k _ _ s).of_sq (writePending_sq _ _ _)

theorem injectsActive_iff (level : Byte) (s : State) (k : Fin 12) :
    injectsActive level s k = true ↔
      s.cl.inService = none ∧ s.ci.inputs[k].mode = .injected ∧ level = 1 ∧ s.ci.inputs[k].settled = false := by
  simp only [injectsActive, Bool.and_eq_true, decide_eq_true_eq, Bool.not_eq_true', Option.isNone_iff_eq_none, and_assoc]
  rfl

theorem inject_delivers {tag input level : Byte} {k : Fin 12} {s : State} (hr : s.resetLine = false)
    (hk : inputOfCode input = some k) (ha : injectsActive level s k = true)
    (hrun : (firstSampleFirst k true (injectServed tag input level s)).inRun = true) :
    ∃ t, exec (.inject tag input level) s = .next t ∧
      Delivers k (firstSampleFirst k true (injectServed tag input level s)) t := by
  obtain ⟨hf, hm, rfl, hs⟩ := (injectsActive_iff level s k).1 ha
  rw [exec_inject_done ⟨hr, hf⟩ hk (by decide) hm, hs]
  refine ⟨_, rfl, Delivers.settle ?_⟩
  obtain ⟨e, he⟩ := firstSampleFirst_input k true (injectServed tag input 1 s)
  have low : (firstSampleFirst k true (injectServed tag input 1 s)).ci.inputs[k].settled = false := by rw [he]; exact hs
  exact injectEdge_delivers low hrun

/-! ## When the row is due -/

theorem inputOfCode_iff (b : Byte) (k : Fin 12) : inputOfCode b = some k ↔ b.toNat = k.val + 1 := by
  revert b k
  decide

/-- The row of the step that hands the counted event. -/
def countedRow : CountedStep → Instr
  | .qualification input => .qualification input
  | .windowEnd input => .windowEnd input
  | .inject tag input level => .inject tag input level
  | .gridInstant => .gridInstant

section
variable (c : Fin 4) (k : Fin 12) (s : State)

theorem decrementDue_qualification :
    decrementDue c (.qualification k.succ) s = true ↔ qualifiesActive k s = true ∧ edgeZeroes c k s = true := by
  simp only [decrementDue, onContact, contactOf_succ, Bool.and_eq_true]

theorem decrementDue_windowEnd :
    decrementDue c (.windowEnd k.succ) s = true ↔ rechecksActive k s = true ∧ edgeZeroes c k s = true := by
  simp only [decrementDue, onContact, contactOf_succ, Bool.and_eq_true]

theorem decrementDue_inject (tag input level : Byte) :
    decrementDue c (.inject tag input level) s = true ↔ ∃ k, inputOfCode input = some k ∧
      injectsActive level s k = true ∧ edgeZeroes c k (injectServed tag input level s) = true := by
  simp only [decrementDue]
  cases h : inputOfCode input with
  | none => simp
  | some k => simp [injectServed]

theorem decrementDue_grid (hr : s.resetLine = false) :
    decrementDue c .gridInstant s = true ↔ sampleHere s ∧ entryCounts c s := by
  have grid (h : sampleHere s) : gridDue s = true := decide_eq_true h.2.1
  simp only [decrementDue, Bool.and_eq_true, entryZeroes_iff hr]
  exact ⟨And.right, fun h => ⟨grid h.1, h⟩⟩

end

/-- The step of the named row, where that row is due. -/
theorem exec_row {c : Fin 4} {via : CountedStep} {s : State} (hr : s.resetLine = false)
    (hd : decrementDue c via s = true) : exec (countedRow via) s = .next (settle (countedStep via s)) := by
  cases via with
  | qualification input =>
    cases input using Fin.cases with
    | zero => cases hd
    | succ k =>
      obtain ⟨ha, -⟩ := (decrementDue_qualification c k s).1 hd
      obtain ⟨-, first, samples, hq, hl, -⟩ := (qualifiesActive_iff_candidate k s).1 ha
      exact exec_due hr rfl ((qualificationDue_input k s).trans (ripe_of_candidate hq hl))
  | windowEnd input =>
    cases input using Fin.cases with
    | zero => cases hd
    | succ k =>
      obtain ⟨ha, -⟩ := (decrementDue_windowEnd c k s).1 hd
      obtain ⟨hw, -⟩ := rechecksActive_iff.1 ha
      exact exec_due (b := windowEndDue k.succ s) hr rfl (by simp only [windowEndDue, contactOf_succ, hw])
  | inject tag input level => exact (exec_requestOf rfl s).trans (act_released hr)
  | gridInstant =>
    obtain ⟨⟨-, hg, -⟩, -⟩ := (decrementDue_grid c s hr).1 hd
    exact exec_gridInstant hr hg

theorem exec_decrementToZero {c : Fin 4} {via : CountedStep} {s : State} (hr : s.resetLine = false)
    (hd : decrementDue c via s = true) : exec (.decrementToZero c via) s = exec (countedRow via) s := by
  rw [exec_row hr hd]
  exact exec_due (f := countedStep via) hr rfl hd

theorem decrementToZero_onlyWhenDue {c : Fin 4} {via : CountedStep} {due : Prop} {s : State} (hr : s.resetLine = false)
    (hb : decrementDue c via s = true ↔ due) : onlyWhenDue (.decrementToZero c via) due (exec (countedRow via) s) s :=
  onlyWhenDue_of_iff hr rfl hb fun hd => exec_row hr (hb.2 hd)

/-- R156: the step that is due brings the counter to 0, or a consumer ends the run. -/
theorem row_zeroes {c : Fin 4} {via : CountedStep} {s : State} (hr : s.resetLine = false)
    (hd : decrementDue c via s = true) :
    ∃ t, exec (countedRow via) s = .next t ∧ (t.sq.counters[c] = 0 ∨ t.inRun = false) := by
  cases via with
  | qualification input =>
    cases input using Fin.cases with
    | zero => cases hd
    | succ k =>
      obtain ⟨ha, he⟩ := (decrementDue_qualification c k s).1 hd
      obtain ⟨hrun, hone, hcounts⟩ := (edgeZeroes_iff c k s).1 he
      obtain ⟨t, ht, delivers⟩ := qualification_delivers hr ha
      exact ⟨t, ht, delivers.zero hrun hone hcounts⟩
  | windowEnd input =>
    cases input using Fin.cases with
    | zero => cases hd
    | succ k =>
      obtain ⟨ha, he⟩ := (decrementDue_windowEnd c k s).1 hd
      obtain ⟨hrun, hone, hcounts⟩ := (edgeZeroes_iff c k s).1 he
      obtain ⟨t, ht, delivers⟩ := windowEnd_delivers hr ha
      exact ⟨t, ht, delivers.zero hrun hone hcounts⟩
  | inject tag input level =>
    obtain ⟨k, hk, ha, he⟩ := (decrementDue_inject c s tag input level).1 hd
    obtain ⟨hrun, hone, hcounts⟩ := (edgeZeroes_iff c k _).1 he
    obtain ⟨t, ht, delivers⟩ := inject_delivers hr hk ha hrun
    exact ⟨t, ht, delivers.zero hrun hone hcounts⟩
  | gridInstant =>
    obtain ⟨here, counts⟩ := (decrementDue_grid c s hr).1 hd
    refine ⟨_, exec_gridInstant hr here.2.1, .inl ?_⟩
    rw [(settle_parts _).1]
    exact gridInstant_zeroes here counts

/-- Settles O51: every due row, the edge of a TIMING input, and when the row is due. -/
theorem countedEventReachesZero : Obligations.CountedEventReachesZero := by
  refine ⟨fun c via s hr hd => ?reaches, fun c k first samples s hr hrun hq hl hn hs hrole hsource hone => ?timing,
    fun c s hr => ?due⟩
  case reaches =>
    rw [exec_decrementToZero hr hd]
    exact row_zeroes hr hd
  case timing =>
    have now : firstSampleFirst k true s = s := firstSampleFirst_now fun ⟨_, hw, _⟩ => hw hrole
    have active : qualifiesActive k s = true := (qualifiesActive_iff_candidate k s).2 ⟨hs, first, samples, hq, hl, hn⟩
    have zeroes : edgeZeroes c k s = true := by
      rw [edgeZeroes_iff, now]
      exact ⟨hrun, hone, .inl hsource⟩
    obtain ⟨t, ht, delivers⟩ := qualification_delivers hr active
    rw [now] at delivers
    refine ⟨t, ?_, delivers.timing_zero hrun hone hsource hrole⟩
    rw [exec_decrementToZero hr ((decrementDue_qualification c k s).2 ⟨active, zeroes⟩)]
    exact ht
  case due =>
    intro trips closes zeroes
    have zeroes_iff (k : Fin 12) (u : State) :
        zeroes k u ↔ u.ci.inputs[k].settled = false ∧ edgeZeroes c k u = true := by
      rw [edgeZeroes_iff]
      unfold edgeCounts
      rw [tripsSome_role, closeAccepted_iff]
      exact and_left_comm
    refine ⟨fun k => ⟨firstSampleFirst_waits, fun hw => firstSampleFirst_now fun h => hw h.2⟩,
      fun k => ⟨decrementToZero_onlyWhenDue hr ?qualification, decrementToZero_onlyWhenDue hr ?windowEnd⟩,
      exec_notDue hr rfl rfl, exec_notDue hr rfl rfl,
      fun tag input level => decrementToZero_onlyWhenDue hr ?inject,
      decrementToZero_onlyWhenDue hr (decrementDue_grid c s hr)⟩
    case qualification =>
      rw [decrementDue_qualification, qualifiesActive_iff_candidate, zeroes_iff]
      exact and_right_comm
    case windowEnd =>
      rw [decrementDue_windowEnd, rechecksActive_iff, windowDue_iff, zeroes_iff]
      constructor
      · rintro ⟨⟨⟨last, hq, hl, hn⟩, hs, hm⟩, hz⟩
        exact ⟨⟨hs, hz⟩, hm, hn, last, hq, hl⟩
      · rintro ⟨⟨hs, hz⟩, hm, hn, last, hq, hl⟩
        exact ⟨⟨⟨last, hq, hl, hn⟩, hs, hm⟩, hz⟩
    case inject =>
      rw [decrementDue_inject]
      simp only [injectsActive_iff, zeroes_iff]
      constructor
      · rintro ⟨k, hk, ⟨hf, hm, hl, hs⟩, hz⟩
        exact ⟨hf, hl, k, (inputOfCode_iff input k).1 hk, hm, hs, hz⟩
      · rintro ⟨hf, hl, k, hk, hm, hs, hz⟩
        exact ⟨k, (inputOfCode_iff input k).2 hk, ⟨hf, hm, hl, hs⟩, hz⟩

end Sys2Proof.Machine

/-! # CHANSET (R53) -/

namespace Sys2Proof.Machine

theorem twoValued_none {n : Nat} (h : 1 < n) : twoValued n = none := by
  rw [twoValued_eq, if_neg (by omega), if_neg (by omega)]

theorem twoValued_some {n : Nat} (h : ¬ 1 < n) : twoValued n = some (decide (n = 1)) := by
  obtain rfl | rfl : n = 0 ∨ n = 1 := by omega
  all_goals rfl

theorem toNat_eq_one (b : Byte) : b.toNat = 1 ↔ b = 1 := BitVec.toNat_inj (y := 1#8)

theorem toNat_eq_seven (b : Byte) : b.toNat = 7 ↔ b = 7 := BitVec.toNat_inj (y := 7#8)

theorem channel_eq_seven {channel : Byte} (h : ¬ 7 < channel.toNat) :
    (Fin.ofNat 8 channel.toNat : Fin 8) = 7 ↔ channel = 7 := by
  rw [← toNat_eq_seven, Fin.ext_iff]
  change channel.toNat % 8 = 7 ↔ channel.toNat = 7
  omega

theorem byteOf_channel {channel : Byte} (h : ¬ 7 < channel.toNat) :
    byteOf (Fin.ofNat 8 channel.toNat : Fin 8).val = [channel] := by
  have low : (Fin.ofNat 8 channel.toNat : Fin 8).val = channel.toNat := Nat.mod_eq_of_lt (by omega)
  rw [low, byteOf, BitVec.ofNat_toNat, BitVec.setWidth_eq]

theorem settingsClamped_status (limit gain offset : Half) :
    clampStatus (settingsClamped limit gain offset) =
      if clampNat 1 32767 limit.toNat = limit.toNat ∧ clampNat 28672 36864 gain.toNat = gain.toNat ∧
        clampInt (-2048) 2047 offset.toInt = offset.toInt then .ok else .clamped := by
  unfold settingsClamped channelSettings clampStatus
  split_ifs <;> simp_all

theorem channelMode_setChannel (ch : Fin 8) (x : ChannelSettings) (residual : Bool) (s : State) :
    channelMode (setChannel ch x residual s).ws.ieMode ch =
      if ch = 7 ∧ residual = true then .residual else .independent := by
  unfold channelMode setChannel
  by_cases seven : ch = 7 <;> cases residual <;> simp [seven]

section
variable {channel mode : Byte} (limit gain offset : Half)

theorem requestChanset_range (s : State) (h : 7 < channel.toNat ∨ 1 < mode.toNat ∨ (mode = 1 ∧ channel ≠ 7)) :
    requestChanset channel limit gain offset mode s = refuse .range s := by
  unfold requestChanset
  by_cases hc : 7 < channel.toNat
  · exact if_pos hc
  · rw [if_neg hc]
    by_cases hm : 1 < mode.toNat
    · rw [twoValued_none hm]
    · obtain ⟨hmode, hchannel⟩ := (h.resolve_left hc).resolve_left hm
      have residual : decide (mode.toNat = 1) = true := by simp [hmode]
      rw [twoValued_some hm]
      exact if_pos ⟨residual, fun e => hchannel ((toNat_eq_seven channel).1 e)⟩

variable (h : ¬ (7 < channel.toNat ∨ 1 < mode.toNat ∨ (mode = 1 ∧ channel ≠ 7)))
include h

/-- R53, past the RANGE checks: BUSY outside IDLE, else the channel set. -/
theorem requestChanset_good (s : State) :
    requestChanset channel limit gain offset mode s =
      if s.sq.state ≠ .idle then refuse .busy s
      else
        let ch : Fin 8 := Fin.ofNat 8 channel.toNat
        let t := setChannel ch (channelSettings limit gain offset) (decide (mode = 1)) s
        carried (clampStatus (settingsClamped limit gain offset)) (channelReadback ch t.ws) t := by
  have hm : ¬ 1 < mode.toNat := fun e => h (.inr (.inl e))
  have allowed : ¬ (decide (mode = 1) = true ∧ channel.toNat ≠ 7) := fun ⟨hmode, hc⟩ =>
    h (.inr (.inr ⟨of_decide_eq_true hmode, fun e => hc ((toNat_eq_seven channel).2 e)⟩))
  unfold requestChanset
  rw [if_neg fun e => h (.inl e), twoValued_some hm, decide_eq_decide.2 (toNat_eq_one mode)]
  exact if_neg allowed

/-- R53: the mode byte of the read-back is the one sent. -/
theorem modeByte_setChannel (x : ChannelSettings) (s : State) :
    let ch : Fin 8 := Fin.ofNat 8 channel.toNat
    byteOf (channelMode (setChannel ch x (decide (mode = 1)) s).ws.ieMode ch).code = [mode] := by
  intro ch
  have hm : ¬ 1 < mode.toNat := fun e => h (.inr (.inl e))
  rw [channelMode_setChannel]
  by_cases one : mode = 1
  · have seven : ch = 7 := (channel_eq_seven fun e => h (.inl e)).2 (by_contra fun hn => h (.inr (.inr ⟨one, hn⟩)))
    rw [if_pos ⟨seven, decide_eq_true one⟩, one]
    rfl
  · have zero : mode = 0 := BitVec.eq_of_toNat_eq (show mode.toNat = 0 by rw [← toNat_eq_one] at one; omega)
    rw [if_neg fun e => one (of_decide_eq_true e.2), zero]
    rfl

theorem channelReadback_setChannel (x : ChannelSettings) (s : State) :
    channelReadback (Fin.ofNat 8 channel.toNat) (setChannel (Fin.ofNat 8 channel.toNat) x (decide (mode = 1)) s).ws =
      [channel] ++ leBytes 2 x.limit ++ leBytes 2 x.gain ++ leSigned 2 x.offset ++ [mode] := by
  unfold channelReadback
  rw [modeByte_setChannel h, byteOf_channel fun e => h (.inl e)]
  simp [setChannel]

end

/-- Settles O10: CHANSET refused by a code, refused outside IDLE, and carried out. -/
theorem chansetSetsOneChannel : Obligations.ChansetSetsOneChannel := by
  intro tag channel limit gain offset mode s listens h bad l g o ch
  refine ⟨fun hb => ?range, fun hb hs => ?busy, fun hb hs => ?done⟩ <;> rw [exec_requestOf rfl]
  case range => exact act_refuse listens fun y => requestChanset_range limit gain offset (putCl y s) hb
  case busy =>
    refine act_refuse listens fun y => ?_
    exact (requestChanset_good limit gain offset hb (putCl y s)).trans (if_pos hs)
  case done =>
    have set : setChannel ch (channelSettings limit gain offset) (decide (mode = 1)) s =
        { s with ws := { s.ws with
            settings := s.ws.settings.set ch ⟨l, g, o⟩
            ieMode := if channel = 7 then (if mode = 1 then .residual else .independent) else s.ws.ieMode } } := by
      unfold setChannel
      simp only [ch, channel_eq_seven fun e => hb (.inl e), decide_eq_true_eq]
      rfl
    rw [← settingsClamped_status, ← set]
    refine act_answer listens (fun y => ?_) rfl
    refine ((requestChanset_good limit gain offset hb (putCl y s)).trans (if_neg (not_not_intro hs))).trans ?_
    dsimp only
    rw [channelReadback_setChannel hb]
    rfl

end Sys2Proof.Machine

/-! # The frames of a grid instant (R80, R83, R87)

A frame instant sends the group its frame (`AmpGroup.framed`), or loses its link, which may end the run or the wait
(`FrameEffect`). -/

namespace Sys2Proof.Machine

/-- The group after a frame instant that loses no link: an outstanding frame missed, the next one sent. -/
def AmpGroup.framed (g : Group) (codes : Vector Int 8) (x : AmpGroup) : AmpGroup :=
  if x.state = .settling ∨ x.state = .ready then
    { x with
      missed := if x.outstanding.isSome then x.missed + 1 else x.missed
      acked := if x.outstanding.isSome then 0 else x.acked
      frameNumber := x.frameNumber + 1
      outstanding := some (x.frameNumber + 1)
      lastFrame := some ⟨x.frameNumber + 1, if x.state = .ready then groupCodes g codes else .replicate 4 0⟩ }
  else x

theorem isSent_iff (x : AmpGroup) : x.isSent = true ↔ x.state = .settling ∨ x.state = .ready := by
  simp [AmpGroup.isSent]

@[simp] theorem perGroup_get_put {α : Type} (x : PerGroup α) (g : Group) (v : α) : (x.put g v).get g = v := by
  cases g <;> rfl

theorem perGroup_get_put_ne {α : Type} {g k : Group} (h : k ≠ g) (x : PerGroup α) (v : α) :
    (x.put g v).get k = x.get k := by
  cases g <;> cases k <;> first | rfl | exact absurd rfl h

@[simp] theorem perGroup_put_put {α : Type} (x : PerGroup α) (g : Group) (v w : α) :
    (x.put g v).put g w = x.put g w := by
  cases g <;> rfl

theorem perGroup_put_get {α : Type} (x : PerGroup α) (g : Group) : x.put g (x.get g) = x := by
  cases g <;> rfl

theorem putGroup_putGroup (g : Group) (x y : AmpGroup) (s : State) :
    putGroup g x (putGroup g y s) = putGroup g x s := by
  simp [putGroup]

theorem putGroup_self (g : Group) (s : State) : putGroup g (s.al.get g) s = s := by
  unfold putGroup
  rw [perGroup_put_get]

section
variable {g : Group} {s : State}

theorem settleMissed_unsent (h : (s.al.get g).isSent ≠ true) : settleMissed g s = s :=
  if_neg fun e => h e.1

theorem settleMissed_answered (h : (s.al.get g).outstanding = none) : settleMissed g s = s :=
  if_neg fun e => by rw [h] at e; cases e.2

theorem settleMissed_missed (h : (s.al.get g).isSent = true) (ho : (s.al.get g).outstanding.isSome = true) :
    settleMissed g s =
      let u := putGroup g { s.al.get g with missed := (s.al.get g).missed + 1, acked := 0, outstanding := none } s
      if 4 ≤ (s.al.get g).missed + 1 then enterFault g .linkLost u else u := if_pos ⟨h, ho⟩

theorem sendFrame_unsent (codes : Vector Int 8) (h : (s.al.get g).isSent ≠ true) : sendFrame g codes s = s := if_neg h

theorem sendFrame_sent (codes : Vector Int 8) (h : (s.al.get g).isSent = true) :
    sendFrame g codes s =
      let x := s.al.get g
      putGroup g { x with
        frameNumber := x.frameNumber + 1, outstanding := some (x.frameNumber + 1)
        lastFrame := some ⟨x.frameNumber + 1,
          if x.state = .ready then groupCodes g codes else .replicate 4 0⟩ } s := if_pos h

end

/-- R80, R83: a frame instant of a group that loses no link. -/
theorem frameInstant_spared {g : Group} {s : State} (codes : Vector Int 8) (h : spared (s.al.get g)) :
    frameInstant g codes s = putGroup g ((s.al.get g).framed g codes) s := by
  unfold frameInstant AmpGroup.framed
  by_cases hs : (s.al.get g).isSent = true
  · rw [if_pos ((isSent_iff _).1 hs)]
    by_cases ho : (s.al.get g).outstanding = none
    · rw [settleMissed_answered ho, sendFrame_sent codes hs]
      simp [ho]
    · have missed : ¬ 4 ≤ (s.al.get g).missed + 1 := by
        have := (h hs).resolve_left ho
        omega
      have some : (s.al.get g).outstanding.isSome = true := Option.isSome_iff_ne_none.2 ho
      rw [settleMissed_missed hs some, if_neg missed, sendFrame_sent]
      · simp [putGroup_putGroup, some]
      · rw [putGroup_al, perGroup_get_put]
        exact hs
  · rw [if_neg fun e => hs ((isSent_iff _).2 e), settleMissed_unsent hs, sendFrame_unsent codes hs, putGroup_self]

/-! ## A frame instant in every case -/

/-- Besides its records the operation changes the group alone. -/
def Regrouped (g : Group) (s t : State) : Prop := ∃ x, t.bare = { s.bare with al := s.al.put g x }

/-- The frame instant changes the group, and a lost link may then end the run (R165) or the wait. -/
inductive FrameEffect (g : Group) (s : State) : State → Prop
  | sent {u : State} (rest : Regrouped g s u) : FrameEffect g s u
  | faulted {u : State} (rest : Regrouped g s u) (run : s.inRun = true) : FrameEffect g s (runEnd .ampFault u)
  | stopped {u : State} (rest : Regrouped g s u) (run : s.inRun = false) : FrameEffect g s (endWait u)

section
variable {g : Group} {s t : State} (h : Regrouped g s t)
include h

theorem Regrouped.ws : t.ws = s.ws := by
  obtain ⟨x, rest⟩ := h
  have e := ws_of_bare rest
  exact e

theorem Regrouped.bs : t.bs = s.bs := by
  obtain ⟨x, rest⟩ := h
  have e := bs_of_bare rest
  exact e

theorem Regrouped.sq : t.sq = s.sq := by
  obtain ⟨x, rest⟩ := h
  have e := sq_of_bare rest
  exact e

theorem Regrouped.inRun : t.inRun = s.inRun := by simp only [State.inRun, h.sq]

theorem Regrouped.other {k : Group} (hk : k ≠ g) : t.al.get k = s.al.get k := by
  obtain ⟨x, rest⟩ := h
  rw [al_of_bare rest, perGroup_get_put_ne hk]

end

@[simp] theorem offerAt_bare (count : Nat) (body : RecordBody) (s : State) : (offerAt count body s).bare = s.bare := by
  unfold offerAt
  split <;> exact offer_bare _ _ _ _

theorem groupLeftReady_cases (s : State) :
    (s.inRun = true ∧ groupLeftReady s = runEnd .ampFault s) ∨
      (s.inRun = false ∧ (groupLeftReady s = endWait s ∨ groupLeftReady s = s)) := by
  unfold groupLeftReady
  cases h : s.sq.state with
  | idle => exact .inr ⟨notRun_of_idle h, .inr rfl⟩
  | armed => exact .inr ⟨notRun_of_armed h, .inl rfl⟩
  | running => exact .inl ⟨inRun_of_running h, rfl⟩
  | pointing => exact .inl ⟨inRun_of_pointing h, rfl⟩
  | gap => exact .inr ⟨notRun_of_gap h, .inl rfl⟩

/-- R87: the fault of a group, which is sent no frame after it. -/
theorem enterFault_effect (g : Group) (cause : AmpEvent) (s : State) :
    FrameEffect g s (enterFault g cause s) ∧ ((enterFault g cause s).al.get g).isSent ≠ true := by
  let x : AmpGroup := { s.al.get g with state := .fault, outstanding := none }
  let u : State := raiseNotice .ampFault (offerAt s.count (.amp g cause none) (putGroup g x s))
  have bare : u.bare = { s.bare with al := s.al.put g x } := by
    simp only [u, raiseNotice_bare, offerAt_bare]
    rfl
  have rest : Regrouped g s u := ⟨x, bare⟩
  have fault : (u.al.get g).isSent ≠ true := by
    rw [al_of_bare bare, perGroup_get_put]
    exact Bool.false_ne_true
  have entered : enterFault g cause s = if (s.al.get g).state = .ready then groupLeftReady u else u := rfl
  rw [entered]
  by_cases ready : (s.al.get g).state = .ready
  · rw [if_pos ready]
    obtain ⟨hr, he⟩ | ⟨hr, he | he⟩ := groupLeftReady_cases u <;> rw [he]
    · exact ⟨.faulted rest (rest.inRun.symm.trans hr), by rwa [runEnd_al]⟩
    · exact ⟨.stopped rest (rest.inRun.symm.trans hr), fault⟩
    · exact ⟨.sent rest, fault⟩
  · rw [if_neg ready]
    exact ⟨.sent rest, fault⟩

/-- The effect of an instant that has put the group's state before. -/
theorem FrameEffect.after {g : Group} {x : AmpGroup} {s t : State} (h : FrameEffect g (putGroup g x s) t) :
    FrameEffect g s t := by
  have regrouped {u : State} (rest : Regrouped g (putGroup g x s) u) : Regrouped g s u := by
    obtain ⟨y, e⟩ := rest
    refine ⟨y, e.trans ?_⟩
    rw [putGroup_al, perGroup_put_put]
    rfl
  cases h with
  | sent rest => exact .sent (regrouped rest)
  | faulted rest run => exact .faulted (regrouped rest) run
  | stopped rest run => exact .stopped (regrouped rest) run

theorem frameInstant_effect (g : Group) (codes : Vector Int 8) (s : State) :
    FrameEffect g s (frameInstant g codes s) := by
  by_cases h : spared (s.al.get g)
  · rw [frameInstant_spared codes h]
    exact .sent ⟨_, rfl⟩
  · obtain ⟨hs, ho⟩ := Classical.not_imp.1 h
    obtain ⟨answered, lost⟩ := not_or.1 ho
    obtain ⟨effect, fault⟩ := enterFault_effect g .linkLost
      (putGroup g { s.al.get g with missed := (s.al.get g).missed + 1, acked := 0, outstanding := none } s)
    unfold frameInstant
    rw [settleMissed_missed hs (Option.isSome_iff_ne_none.2 answered), if_pos (by omega), sendFrame_unsent codes fault]
    exact effect.after

/-- R118: the breaker after a run end. -/
def Breaker.stopped (bs : Breaker) : Breaker :=
  { bs with
    poles := bs.poles.map Position.resolved
    spring := stopSpring bs.spring, discrepancy := .idle, active := false }

section
variable {g : Group} {s t : State} (h : FrameEffect g s t)
include h

theorem FrameEffect.other {k : Group} (hk : k ≠ g) : t.al.get k = s.al.get k := by
  cases h with
  | sent rest => exact rest.other hk
  | faulted rest run => rw [runEnd_al, rest.other hk]
  | stopped rest run => exact rest.other hk

theorem FrameEffect.codes : t.ws.codes = s.ws.codes := by
  cases h with
  | sent rest => rw [rest.ws]
  | faulted rest run => rw [runEnd_ws, rest.ws]
  | stopped rest run => exact congrArg Synthesis.codes rest.ws

/-- The breaker and the run stand, or the lost link has ended the run (R118, R165). -/
theorem FrameEffect.breaker :
    (t.inRun = s.inRun ∧ t.bs = s.bs) ∨ (s.inRun = true ∧ t.inRun = false ∧ t.bs = s.bs.stopped) := by
  cases h with
  | sent rest => exact .inl ⟨rest.inRun, rest.bs⟩
  | faulted rest run => exact .inr ⟨run, runEnd_inRun _ _, by rw [runEnd_bs, rest.bs]; rfl⟩
  | stopped rest run => exact .inl ⟨run.symm, rest.bs⟩

/-- Outside a run a lost link ends a wait at most. -/
theorem FrameEffect.outside (run : s.inRun = false) :
    t.inRun = false ∧ t.sq.lastOutcome = s.sq.lastOutcome ∧ (s.sq.state = .idle → t.sq.state = .idle) := by
  cases h with
  | sent rest => exact ⟨rest.inRun.trans run, by rw [rest.sq], by rw [rest.sq]; exact id⟩
  | faulted rest run' => rw [run] at run'; cases run'
  | stopped rest _ => exact ⟨rfl, show _ = _ from rest.sq ▸ rfl, fun _ => rfl⟩

end

/-! ## The grid instant outside a run (R54) -/

/-- The codes of the sample handed to the amplifier link, before its frames. -/
def handCodes (done : State × Vector Int 8) : State := { done.1 with ws := { done.1.ws with codes := done.2 } }

theorem gridInstant_eq (s : State) :
    gridInstant s =
      let done := gridSample (takeGrid s)
      frameInstant .i done.2 (frameInstant .v done.2 (handCodes done)) := rfl

theorem framed_zeros (g : Group) (x : AmpGroup) :
    x.framed g zeroCodes =
      if x.state = .settling ∨ x.state = .ready then
        { x with
          missed := if x.outstanding.isSome then x.missed + 1 else x.missed
          acked := if x.outstanding.isSome then 0 else x.acked
          frameNumber := x.frameNumber + 1
          outstanding := some (x.frameNumber + 1)
          lastFrame := some ⟨x.frameNumber + 1, .replicate 4 0⟩ }
      else x := by
  have zeros : groupCodes g zeroCodes = .replicate 4 0 := by
    apply Vector.ext
    intro k hk
    simp [groupCodes, zeroCodes]
  unfold AmpGroup.framed
  rw [zeros, ite_self]

/-- Both groups spared: each is sent its frame, and the rest stands. -/
theorem frames_spared {s : State} (codes : Vector Int 8) (hv : spared s.al.v) (hi : spared s.al.i) :
    frameInstant .i codes (frameInstant .v codes s) =
      { s with al := ⟨s.al.v.framed .v codes, s.al.i.framed .i codes⟩ } := by
  rw [frameInstant_spared codes (g := .v) hv]
  exact frameInstant_spared codes (g := .i) hi

/-- Settles O40: the zero codes, then the frames. -/
theorem gridInstantOutsideARunSendsZeros : Obligations.GridInstantOutsideARunSendsZeros := by
  intro s hr hg hrun hv hi after
  have idle : gridSample (takeGrid s) = (takeGrid s, zeroCodes) := if_neg (Bool.eq_false_iff.1 hrun)
  rw [exec_gridInstant hr hg, gridInstant_eq, idle]
  dsimp only
  rw [frames_spared zeroCodes (s := handCodes (takeGrid s, zeroCodes)) hv hi, framed_zeros, framed_zeros]
  rfl

end Sys2Proof.Machine

/-! # The run ends that take a sample's place (R54, R161, R166, R169) -/

namespace Sys2Proof.Machine

theorem ending_iff (s : State) : s.ending = true ↔ ∃ x, s.sq.taken = some x ∧ x.target = .finish := by
  unfold State.ending
  cases s.sq.taken <;> simp

theorem sampleEnd_complete {t : Nat} {s : State} (h : ∃ x, s.sq.taken = some x ∧ x.target = .finish) :
    sampleEnd t s = some .complete := if_pos ((ending_iff s).2 h)

theorem sampleEnd_goesOn {t : Nat} {s : State} (h : ¬ ∃ x, s.sq.taken = some x ∧ x.target = .finish)
    (ht : t < 4000000000) : sampleEnd t s = none :=
  (if_neg fun e => h ((ending_iff s).1 e)).trans (if_neg (Nat.not_le.2 ht))

theorem runSample_ended {count : Nat} {o : RunOutcome} {s : State} (h : sampleEnd (s.runTimeAt count) s = some o) :
    runSample count s = (runEnd o s, zeroCodes) := by
  unfold runSample
  simp only [h]

/-- R54: a grid instant in a run is its sample, the codes of the sample, and the frames. -/
theorem gridInstant_inRun {s : State} (hr : s.inRun = true) :
    gridInstant s =
      let done := runSample s.count (takeGrid s)
      frameInstant .i done.2 (frameInstant .v done.2 (handCodes done)) := by
  have sample : gridSample (takeGrid s) = runSample s.count (takeGrid s) := if_pos hr
  rw [gridInstant_eq, sample]

/-- R169: only COMPLETE goes on to a gap or an armed wait. -/
theorem runEnd_idle {o : RunOutcome} (h : o ≠ .complete) (s : State) : (runEnd o s).sq.state = .idle := by
  rw [runEnd_eq]
  cases o with
  | complete => exact absurd rfl h
  | halted => rfl
  | ampFault => rfl
  | table => rfl
  | limit => rfl

theorem settle_inRun (s : State) : (settle s).inRun = s.inRun := by simp only [State.inRun, (settle_parts s).1]

theorem settle_codes (s : State) : (settle s).ws.codes = s.ws.codes := by
  unfold settle arbitrate
  repeat' split
  all_goals rfl

/-- The whole grid instant at which a run ends in the sample's place (R54, R80, R166). -/
def endedInstant (o : RunOutcome) (s : State) : State :=
  settle (frameInstant .i zeroCodes (frameInstant .v zeroCodes (handCodes (runEnd o (takeGrid s), zeroCodes))))

theorem settle_gridInstant_ended {o : RunOutcome} {s : State} (hr : s.inRun = true) (he : sampleEnd s.now s = some o) :
    settle (gridInstant s) = endedInstant o s := by
  have ended : sampleEnd ((takeGrid s).runTimeAt s.count) (takeGrid s) = some o := he
  rw [gridInstant_inRun hr, runSample_ended ended]
  rfl

theorem endedInstant_eq (o : RunOutcome) (s : State) :
    endedInstant o s =
      let ended := runEnd o (takeGrid s)
      settle (frameInstant .i (.replicate 8 0) (frameInstant .v (.replicate 8 0)
        { ended with ws := { ended.ws with codes := .replicate 8 0 } })) := rfl

/-- The run end stands through the frames, whatever link they lose. -/
theorem endedInstant_run (o : RunOutcome) (s : State) :
    (endedInstant o s).inRun = false ∧ (endedInstant o s).sq.lastOutcome = some o ∧
      (o ≠ .complete → (endedInstant o s).sq.state = .idle) ∧ (endedInstant o s).ws.codes = zeroCodes := by
  let first := handCodes (runEnd o (takeGrid s), zeroCodes)
  have out : first.inRun = false := runEnd_inRun o (takeGrid s)
  have outcome : first.sq.lastOutcome = some o := by
    obtain ⟨_, _, _, e⟩ := runEnd_sq o (takeGrid s)
    exact congrArg Sequencer.lastOutcome e
  have effectV := frameInstant_effect .v zeroCodes first
  obtain ⟨outV, outcomeV, idleV⟩ := effectV.outside out
  have effectI := frameInstant_effect .i zeroCodes (frameInstant .v zeroCodes first)
  obtain ⟨outI, outcomeI, idleI⟩ := effectI.outside outV
  unfold endedInstant
  rw [settle_inRun, (settle_parts _).1, settle_codes]
  refine ⟨outI, outcomeI.trans (outcomeV.trans outcome), fun ho => idleI (idleV (runEnd_idle ho _)), ?_⟩
  exact effectI.codes.trans effectV.codes

/-- Settles O49: the run ends of a sample, and the whole grid instant of each. -/
theorem limitEndsTheRun : Obligations.LimitEndsTheRun := by
  refine ⟨fun s hr hg hrun => ⟨fun hl hx => ?limit, fun x hx hf => ?complete⟩,
    fun t s => ⟨sampleEnd_complete, ?past, ?before⟩, fun count o s => runSample_ended⟩
  case limit =>
    obtain ⟨out, outcome, idle, codes⟩ := endedInstant_run .limit s
    have ended := settle_gridInstant_ended hrun ((sampleEnd_limit _ _).2 ⟨hl, hx⟩)
    refine ⟨endedInstant .limit s, ?_, ?_, ?_, out, idle (by decide), outcome, codes⟩
    · rw [exec_due hr rfl ((limitDue_iff s).2 ⟨hg, hrun, hl, hx⟩), ended]
    · rw [exec_gridInstant hr hg, ended]
    · rw [endedInstant_eq]
  case complete =>
    obtain ⟨out, outcome, -, codes⟩ := endedInstant_run .complete s
    have ended := settle_gridInstant_ended hrun (sampleEnd_complete ⟨x, hx, hf⟩)
    refine ⟨endedInstant .complete s, ?_, ?_, out, outcome, codes⟩
    · rw [exec_gridInstant hr hg, ended]
    · rw [endedInstant_eq]
  case past => exact fun h ht => (sampleEnd_limit t s).2 ⟨ht, fun y hy hf => h ⟨y, hy, hf⟩⟩
  case before => exact sampleEnd_goesOn

end Sys2Proof.Machine

/-! # The breaker's stages at a sample (R102 to R104, R108 to R112)

One equation per stage: besides its records a stage moves each pole by a function of that pole's position. -/

namespace Sys2Proof.Machine

/-! ## One stage on one pole -/

section
variable {t : Nat} {s : State} {p : Pole} {start : Nat}

theorem partContacts_tripping (h : s.bs.poles.get p = .tripping start) :
    partContacts t s p =
      if start + s.bs.settings.opening.get p ≤ t then
        offerRun t (.breaker (.pole p) .contactsParted (some (t - start))) (putPole p (.arcing t) s)
      else s := by
  unfold partContacts expired breakerRecord
  simp only [h, decide_eq_true_eq]

theorem partContacts_other (h : ∀ start, s.bs.poles.get p ≠ .tripping start) : partContacts t s p = s := by
  unfold partContacts
  split
  · next start e => exact absurd e (h start)
  · rfl

theorem forceOpen_arcing (h : s.bs.poles.get p = .arcing start) :
    forceOpen t s p =
      if start + s.bs.settings.arcing ≤ t then
        offerRun t (.breaker (.pole p) .interruptedForced (some (t - start))) (putPole p .opened s)
      else s := by
  unfold forceOpen expired breakerRecord
  simp only [h, decide_eq_true_eq]

theorem forceOpen_other (h : ∀ start, s.bs.poles.get p ≠ .arcing start) : forceOpen t s p = s := by
  unfold forceOpen
  split
  · next start e => exact absurd e (h start)
  · rfl

theorem finishClosing_closing (h : s.bs.poles.get p = .closing start) :
    finishClosing t s p =
      if start + s.bs.settings.closing ≤ t then
        offerRun t (.breaker (.pole p) .closed (some (t - start))) (putPole p .closed s)
      else s := by
  unfold finishClosing expired breakerRecord
  simp only [h, decide_eq_true_eq]

theorem finishClosing_other (h : ∀ start, s.bs.poles.get p ≠ .closing start) : finishClosing t s p = s := by
  unfold finishClosing
  split
  · next start e => exact absurd e (h start)
  · rfl

theorem truncDiv_nat (n : Int) : truncDiv n 65536 = Int.tdiv n 65536 := rfl

/-- R69: the limited sum of a current channel is the clamp of the spec. -/
theorem channelSum_current {ch : Fin 8} (h : isCurrent ch = true) (x : LiveRecord) :
    (channelSum ch x).1 =
      clampInt (-32767) 32767 (sineCode (x.aFix / 65536).toNat x.theta + Int.tdiv x.d 65536) := by
  unfold channelSum clampInt
  rw [if_pos h, truncDiv_nat]
  dsimp only
  by_cases above : 32767 < sineCode (x.aFix / 65536).toNat x.theta + Int.tdiv x.d 65536
  · rw [if_pos above, if_neg (by omega), if_pos above]
  · rw [if_neg above, if_neg above]
    split <;> rfl

theorem isCurrent_currentChannel (p : Pole) : isCurrent (currentChannel p) = true := by
  cases p <;> rfl

/-- R103: the condition of the interruption as the candidate and s_prev give it. -/
def quenches (s : State) (p : Pole) : Bool :=
  crossesZero (channelSum (currentChannel p) s.ws.live[currentChannel p]).1 s.ws.live[currentChannel p].sPrev

theorem quenches_iff (s : State) (p : Pole) : quenches s p = true ↔ arcCrosses p s := by
  unfold quenches arcCrosses crossesZero
  rw [channelSum_current (isCurrent_currentChannel p)]
  simp only [Bool.or_eq_true, decide_eq_true_eq, mul_neg_iff]
  tauto

theorem interruptPole_arcing (h : s.bs.poles.get p = .arcing start) :
    interruptPole t s p =
      if quenches s p then
        offerRun t (.breaker (.pole p) .interrupted (some (t - start))) (putPole p .opened s)
      else s := by
  unfold interruptPole
  simp only [h]
  rfl

theorem interruptPole_other (h : ∀ start, s.bs.poles.get p ≠ .arcing start) : interruptPole t s p = s := by
  unfold interruptPole
  split
  · next start e => exact absurd e (h start)
  · rfl

theorem chargeSpring_charging (h : s.bs.spring = .charging (some start)) :
    chargeSpring t s =
      if start + s.bs.settings.charge ≤ t then
        offerRun t (.breaker .mechanism .springCharged (some (t - start)))
          { s with bs := { s.bs with spring := .charged } }
      else s := by
  unfold chargeSpring expired breakerRecord
  simp only [h, decide_eq_true_eq]

theorem chargeSpring_other (h : ∀ start, s.bs.spring ≠ .charging (some start)) : chargeSpring t s = s := by
  unfold chargeSpring
  split
  · next start e => exact absurd e (h start)
  · rfl

end

/-! ## The position that a stage gives -/

/-- R102. -/
def Position.parted (t opening : Nat) : Position → Position
  | .tripping start => if start + opening ≤ t then .arcing t else .tripping start
  | x => x

/-- R104. -/
def Position.forced (t arcing : Nat) : Position → Position
  | .arcing start => if start + arcing ≤ t then .opened else .arcing start
  | x => x

/-- R108. -/
def Position.closedAt (t closing : Nat) : Position → Position
  | .closing start => if start + closing ≤ t then .closed else .closing start
  | x => x

/-- R103. -/
def Position.interrupted (crosses : Bool) : Position → Position
  | .arcing start => if crosses then .opened else .arcing start
  | x => x

/-- R111. -/
def Position.tripped (t : Nat) : Position → Position
  | .closed => .tripping t
  | .closing _ => .opened
  | x => x

theorem Position.parted_other {t opening : Nat} {x : Position} (h : ∀ start, x ≠ .tripping start) :
    x.parted t opening = x := by
  cases x with
  | tripping start => exact absurd rfl (h start)
  | _ => rfl

theorem Position.forced_other {t arcing : Nat} {x : Position} (h : ∀ start, x ≠ .arcing start) :
    x.forced t arcing = x := by
  cases x with
  | arcing start => exact absurd rfl (h start)
  | _ => rfl

theorem Position.closedAt_other {t closing : Nat} {x : Position} (h : ∀ start, x ≠ .closing start) :
    x.closedAt t closing = x := by
  cases x with
  | closing start => exact absurd rfl (h start)
  | _ => rfl

theorem Position.interrupted_other {crosses : Bool} {x : Position} (h : ∀ start, x ≠ .arcing start) :
    x.interrupted crosses = x := by
  cases x with
  | arcing start => exact absurd rfl (h start)
  | _ => rfl

theorem putPole_get (s : State) (p : Pole) : putPole p (s.bs.poles.get p) s = s := by
  unfold putPole
  rw [put_get_self]

/-- A pole's move with its record, or none. -/
theorem move_bare (c : Prop) [Decidable c] (t : Nat) (body : RecordBody) (p : Pole) (x : Position) (s : State) :
    (if c then offerRun t body (putPole p x s) else s).bare =
      (putPole p (if c then x else s.bs.poles.get p) s).bare := by
  by_cases h : c
  · rw [if_pos h, if_pos h, offerRun_bare]
  · rw [if_neg h, if_neg h, putPole_get]

section
variable (t : Nat) (s : State) (p : Pole)

theorem partContacts_bare :
    (partContacts t s p).bare = (putPole p ((s.bs.poles.get p).parted t (s.bs.settings.opening.get p)) s).bare := by
  by_cases h : ∃ start, s.bs.poles.get p = .tripping start
  · obtain ⟨start, h⟩ := h
    rw [partContacts_tripping h, move_bare, h]
    rfl
  · rw [partContacts_other (not_exists.1 h), Position.parted_other (not_exists.1 h), putPole_get]

theorem forceOpen_bare :
    (forceOpen t s p).bare = (putPole p ((s.bs.poles.get p).forced t s.bs.settings.arcing) s).bare := by
  by_cases h : ∃ start, s.bs.poles.get p = .arcing start
  · obtain ⟨start, h⟩ := h
    rw [forceOpen_arcing h, move_bare, h]
    rfl
  · rw [forceOpen_other (not_exists.1 h), Position.forced_other (not_exists.1 h), putPole_get]

theorem finishClosing_bare :
    (finishClosing t s p).bare = (putPole p ((s.bs.poles.get p).closedAt t s.bs.settings.closing) s).bare := by
  by_cases h : ∃ start, s.bs.poles.get p = .closing start
  · obtain ⟨start, h⟩ := h
    rw [finishClosing_closing h, move_bare, h]
    rfl
  · rw [finishClosing_other (not_exists.1 h), Position.closedAt_other (not_exists.1 h), putPole_get]

theorem interruptPole_bare :
    (interruptPole t s p).bare = (putPole p ((s.bs.poles.get p).interrupted (quenches s p)) s).bare := by
  by_cases h : ∃ start, s.bs.poles.get p = .arcing start
  · obtain ⟨start, h⟩ := h
    rw [interruptPole_arcing h, move_bare, h]
    rfl
  · rw [interruptPole_other (not_exists.1 h), Position.interrupted_other (not_exists.1 h), putPole_get]

theorem discrepancyPole_bare :
    (discrepancyPole t s p).bare = (putPole p ((s.bs.poles.get p).tripped t) s).bare := by
  unfold discrepancyPole
  split
  · next h => rw [h]; rfl
  · next start h => rw [h]; exact offerRun_bare _ _ _
  · next closed closing =>
    have still : (s.bs.poles.get p).tripped t = s.bs.poles.get p := by
      cases h : s.bs.poles.get p with
      | closed => exact absurd h closed
      | closing start => exact absurd h (closing start)
      | _ => rfl
    rw [still, putPole_get]

end

/-! ## One stage on all three poles -/

/-- Each pole's own value changed. -/
def PerPole.mapEach {α β : Type} (g : Pole → α → β) (x : PerPole α) : PerPole β := ⟨g .a x.a, g .b x.b, g .c x.c⟩

@[simp] theorem mapEach_get {α β : Type} (g : Pole → α → β) (x : PerPole α) (p : Pole) :
    (x.mapEach g).get p = g p (x.get p) := by
  cases p <;> rfl

/-- The three positions taken. -/
def putPoles (x : PerPole Position) (s : State) : State := { s with bs := { s.bs with poles := x } }

/-- Besides its records the operation gives the poles these positions. -/
def Positioned (x : PerPole Position) (s t : State) : Prop := t.bare = (putPoles x s).bare

section
variable {x y : PerPole Position} {s t u : State}

theorem Positioned.bs (h : Positioned x s t) : t.bs = { s.bs with poles := x } := by
  have e := bs_of_bare h
  exact e

theorem Positioned.poles (h : Positioned x s t) : t.bs.poles = x := congrArg Breaker.poles h.bs

theorem Positioned.settings (h : Positioned x s t) : t.bs.settings = s.bs.settings := by rw [h.bs]

theorem Positioned.ws (h : Positioned x s t) : t.ws = s.ws := by
  have e := ws_of_bare h
  exact e

theorem Positioned.trans (h : Positioned x s t) (k : Positioned y t u) : Positioned y s u := by
  have put (v : State) : (putPoles y v).bare = putPoles y v.bare := rfl
  unfold Positioned at *
  rw [k, put, h]
  rfl

end

/-- A stage that moves each pole by its own position, the settings and the live records does so with all three. -/
theorem foldl_positioned {f : State → Pole → State} {g : State → Pole → Position → Position}
    (step : ∀ s p, (f s p).bare = (putPole p (g s p (s.bs.poles.get p)) s).bare)
    (stable : ∀ s u p, u.bs.settings = s.bs.settings → u.ws = s.ws → g u p = g s p) (s : State) :
    Positioned (s.bs.poles.mapEach (g s)) s (poleOrder.foldl f s) := by
  have next {x : PerPole Position} {u : State} (h : Positioned x s u) (p : Pole) :
      Positioned (x.put p (g s p (x.get p))) s (f u p) := by
    have moved : Positioned (x.put p (g s p (x.get p))) u (f u p) := by
      have e := step u p
      rw [stable s u p h.settings h.ws, h.poles] at e
      unfold putPole at e
      rw [h.poles] at e
      exact e
    exact h.trans moved
  have start : Positioned s.bs.poles s s := rfl
  exact next (next (next start .a) .b) .c

/-- The positions that stages 1 to 3 give. -/
def expiredPoles (t : Nat) (bs : Breaker) : PerPole Position :=
  bs.poles.mapEach fun p x =>
    ((x.parted t (bs.settings.opening.get p)).forced t bs.settings.arcing).closedAt t bs.settings.closing

section
variable (t : Nat) (s : State)

theorem partAll :
    Positioned (s.bs.poles.mapEach fun p x => x.parted t (s.bs.settings.opening.get p)) s
      (poleOrder.foldl (partContacts t) s) :=
  foldl_positioned (g := fun s p x => x.parted t (s.bs.settings.opening.get p)) (partContacts_bare t)
    (fun s u p e _ => by simp only [e]) s

theorem forceAll :
    Positioned (s.bs.poles.mapEach fun _ x => x.forced t s.bs.settings.arcing) s (poleOrder.foldl (forceOpen t) s) :=
  foldl_positioned (g := fun s _ x => x.forced t s.bs.settings.arcing) (forceOpen_bare t)
    (fun s u p e _ => by simp only [e]) s

theorem closeAll :
    Positioned (s.bs.poles.mapEach fun _ x => x.closedAt t s.bs.settings.closing) s
      (poleOrder.foldl (finishClosing t) s) :=
  foldl_positioned (g := fun s _ x => x.closedAt t s.bs.settings.closing) (finishClosing_bare t)
    (fun s u p e _ => by simp only [e]) s

theorem interruptAll :
    Positioned (s.bs.poles.mapEach fun p x => x.interrupted (quenches s p)) s (interruptPoles t s) :=
  foldl_positioned (g := fun s p x => x.interrupted (quenches s p)) (interruptPole_bare t)
    (fun s u p _ e => by simp only [quenches, e]) s

theorem tripAll :
    Positioned (s.bs.poles.mapEach fun _ x => x.tripped t) s (poleOrder.foldl (discrepancyPole t) s) :=
  foldl_positioned (g := fun _ _ x => x.tripped t) (discrepancyPole_bare t) (fun _ _ _ _ _ => rfl) s

/-- Stages 1 to 3 on the poles, before ALL_CLOSED. -/
def timedPoles : State :=
  poleOrder.foldl (finishClosing t) (poleOrder.foldl (forceOpen t) (poleOrder.foldl (partContacts t) s))

theorem timedPoles_positioned : Positioned (expiredPoles t s.bs) s (timedPoles t s) := by
  have parted := partAll t s
  have forced := parted.trans (forceAll t (poleOrder.foldl (partContacts t) s))
  have closed := forced.trans (closeAll t (poleOrder.foldl (forceOpen t) (poleOrder.foldl (partContacts t) s)))
  rw [forced.bs, parted.bs] at closed
  exact closed

theorem closingEnds_iff (bs : Breaker) :
    closingEnds t bs = true ↔ ∃ p start, bs.poles.get p = .closing start ∧ start + bs.settings.closing ≤ t := by
  unfold closingEnds
  rw [any_iff]
  refine exists_congr fun p => ?_
  cases bs.poles.get p <;> simp [expired]

theorem forced_parted_closing {opening arcing start : Nat} (x : Position) :
    (x.parted t opening).forced t arcing = .closing start ↔ x = .closing start := by
  cases x with
  | tripping begun =>
    unfold Position.parted
    dsimp only
    split
    · unfold Position.forced
      dsimp only
      split <;> simp
    · simp [Position.forced]
  | arcing begun =>
    simp only [Position.parted, Position.forced]
    split <;> simp
  | _ => simp [Position.parted, Position.forced]

/-- Stages 1 to 3: a closing that ends at the sample may leave all poles CLOSED (R108). -/
theorem breakerExpiries_eq :
    breakerExpiries t s =
      if closesAll t s.bs (timedPoles t s).bs then
        offerRun t (.breaker .mechanism .allClosed none) (timedPoles t s)
      else timedPoles t s := by
  have forced := (partAll t s).trans (forceAll t (poleOrder.foldl (partContacts t) s))
  rw [(partAll t s).bs] at forced
  have ends : closingEnds t (poleOrder.foldl (forceOpen t) (poleOrder.foldl (partContacts t) s)).bs =
      closingEnds t s.bs := by
    rw [Bool.eq_iff_iff, closingEnds_iff, closingEnds_iff, forced.bs]
    simp only [mapEach_get, forced_parted_closing]
  have same : closesAll t (poleOrder.foldl (forceOpen t) (poleOrder.foldl (partContacts t) s)).bs (timedPoles t s).bs =
      closesAll t s.bs (timedPoles t s).bs := by
    unfold closesAll
    rw [ends]
  rw [← same]
  rfl

theorem breakerExpiries_positioned : Positioned (expiredPoles t s.bs) s (breakerExpiries t s) := by
  rw [breakerExpiries_eq]
  split
  · exact (offerRun_bare _ _ _).trans (timedPoles_positioned t s)
  · exact timedPoles_positioned t s

theorem closesAll_iff (before after : Breaker) :
    closesAll t before after = true ↔
      (∃ p start, before.poles.get p = .closing start ∧ start + before.settings.closing ≤ t) ∧
        ∀ p, after.poles.get p = .closed := by
  unfold closesAll
  rw [Bool.and_eq_true, closingEnds_iff, every_iff]
  simp only [decide_eq_true_eq]

end

/-! ## The spring and the discrepancy timer -/

/-- R109. -/
def Spring.chargedAt (t charge : Nat) : Spring → Spring
  | .charging (some start) => if start + charge ≤ t then .charged else .charging (some start)
  | x => x

section
variable (t : Nat) (s : State)

theorem chargeSpring_bare :
    (chargeSpring t s).bare =
      { s.bare with bs := { s.bs with spring := s.bs.spring.chargedAt t s.bs.settings.charge } } := by
  by_cases h : ∃ start, s.bs.spring = .charging (some start)
  · obtain ⟨start, h⟩ := h
    rw [chargeSpring_charging h, h]
    unfold Spring.chargedAt
    dsimp only
    split
    · exact offerRun_bare _ _ _
    · rw [← h]
      rfl
  · have still : s.bs.spring.chargedAt t s.bs.settings.charge = s.bs.spring := by
      unfold Spring.chargedAt
      split
      · next start e => exact absurd ⟨start, e⟩ h
      · rfl
    rw [chargeSpring_other (not_exists.1 h), still]
    rfl

theorem judgeDiscrepancy_expired (h : discrepancyExpires t s.bs = true) :
    ∃ start, judgeDiscrepancy t s = discrepancyTrip t start (putDiscrepancy (.spent start) s) := by
  obtain ⟨nonzero, apart, start, phase, late⟩ := (discrepancyExpires_iff t s.bs).1 h
  refine ⟨start, ?_⟩
  unfold judgeDiscrepancy
  rw [if_neg nonzero, if_pos apart]
  simp only [phase]
  exact if_pos (decide_eq_true late)

theorem judgeDiscrepancy_pending (h : discrepancyExpires t s.bs ≠ true) :
    ∃ phase, judgeDiscrepancy t s = putDiscrepancy phase s := by
  have still : s = putDiscrepancy s.bs.discrepancy s := rfl
  unfold judgeDiscrepancy
  by_cases zero : s.bs.settings.discrepancy = 0
  · exact ⟨_, (if_pos zero).trans still⟩
  · rw [if_neg zero]
    by_cases apart : disagreement s.bs.poles = true
    · rw [if_pos apart]
      cases phase : s.bs.discrepancy with
      | idle => exact ⟨_, rfl⟩
      | spent start => exact ⟨_, still⟩
      | timing start =>
        have early : ¬ expired t start s.bs.settings.discrepancy = true := fun late =>
          h ((discrepancyExpires_iff t s.bs).2 ⟨zero, apart, start, phase, of_decide_eq_true late⟩)
        exact ⟨_, (if_neg early).trans still⟩
    · exact ⟨_, if_neg apart⟩

/-- R110, R111: stage 6 trips the poles at the timer's expiry, and else moves the phase alone. -/
theorem judgeDiscrepancy_bare :
    ∃ phase, (judgeDiscrepancy t s).bare =
      { s.bare with bs := { s.bs with
          discrepancy := phase
          poles := if discrepancyExpires t s.bs then s.bs.poles.mapEach fun _ x => x.tripped t else s.bs.poles } } := by
  by_cases h : discrepancyExpires t s.bs = true
  · obtain ⟨start, e⟩ := judgeDiscrepancy_expired t s h
    rw [if_pos h, e]
    exact ⟨.spent start, (breakerRecord_bare _ _ _ _ _).trans (tripAll t (putDiscrepancy (.spent start) s))⟩
  · obtain ⟨phase, e⟩ := judgeDiscrepancy_pending t s h
    rw [if_neg h, e]
    exact ⟨phase, rfl⟩

end

/-! ## The whole sample -/

/-- The operation leaves all but the breaker, the waves, the outputs, and what its records touch. -/
def Sampled (s t : State) : Prop := t.bare = { s.bare with bs := t.bs, ws := t.ws, bo := t.bo }

theorem Sampled.trans {s t u : State} (h : Sampled s t) (k : Sampled t u) : Sampled s u := by
  unfold Sampled at *
  rw [k, h]

theorem Positioned.sampled {x : PerPole Position} {s t : State} (h : Positioned x s t) : Sampled s t := by
  have bo := bo_of_bare h
  unfold Sampled
  rw [h, h.bs, h.ws, bo]
  rfl

theorem clipEpisode_sampled (t : Nat) (s : State) (ch : Fin 8) : Sampled s (clipEpisode t s ch) := by
  have flagged (flag : Bool) (body : RecordBody) : Sampled s (offerRun t body (putClip ch flag s)) := by
    unfold Sampled
    rw [offerRun_bare, offerRun_bs, offerRun_ws, offerRun_bo]
    rfl
  unfold clipEpisode
  dsimp only
  split
  · exact flagged _ _
  · split
    · exact flagged _ _
    · rfl

section
variable (t : Nat) (s : State)

/-- R65 at an entry sample: the state in which stage 4 begins. -/
def dropDcAtEntry : State := if s.sq.entrySample then dropOpenDc s else s

theorem dropDcAtEntry_bs : (dropDcAtEntry s).bs = s.bs := by
  unfold dropDcAtEntry
  split <;> rfl

theorem dropDcAtEntry_sampled : Sampled s (dropDcAtEntry s) := by
  unfold dropDcAtEntry
  split <;> rfl

theorem clipEpisodes_sampled : Sampled s (clipEpisodes t s) := by
  have fold (l : List (Fin 8)) (u : State) : Sampled u (l.foldl (clipEpisode t) u) := by
    induction l generalizing u with
    | nil => rfl
    | cons ch l ih => exact (clipEpisode_sampled t u ch).trans (ih _)
  exact fold _ s

theorem computeWaves_eq :
    computeWaves t s =
      let clipped := clipEpisodes t (interruptPoles t (dropDcAtEntry s))
      (advanceAll clipped, sampleCodes clipped) := by
  unfold computeWaves
  rfl

theorem computeSample_eq :
    (computeSample t s).1 =
      refreshOutputs true (judgeDiscrepancy t (chargeSpring t (advanceAll (clipEpisodes t
        (interruptPoles t (dropDcAtEntry (breakerExpiries t s))))))) := by
  unfold computeSample
  dsimp only
  rw [computeWaves_eq]

theorem chargeSpring_sampled : Sampled s (chargeSpring t s) := by
  have e := chargeSpring_bare t s
  have bs := bs_of_bare e
  have ws := ws_of_bare e
  have bo := bo_of_bare e
  unfold Sampled
  rw [e, bs, ws, bo]

theorem judgeDiscrepancy_sampled : Sampled s (judgeDiscrepancy t s) := by
  obtain ⟨phase, e⟩ := judgeDiscrepancy_bare t s
  have bs := bs_of_bare e
  have ws := ws_of_bare e
  have bo := bo_of_bare e
  unfold Sampled
  rw [e, bs, ws, bo]

theorem computeSample_sampled : Sampled s (computeSample t s).1 := by
  have interrupted := ((breakerExpiries_positioned t s).sampled.trans (dropDcAtEntry_sampled _)).trans
    (interruptAll t (dropDcAtEntry (breakerExpiries t s))).sampled
  have advanced (u : State) : Sampled u (advanceAll u) := rfl
  have refreshed (u : State) : Sampled u (refreshOutputs true u) := rfl
  have waves := (interrupted.trans (clipEpisodes_sampled t _)).trans (advanced _)
  rw [computeSample_eq]
  exact ((waves.trans (chargeSpring_sampled t _)).trans (judgeDiscrepancy_sampled t _)).trans (refreshed _)

end

section
variable {s t : State} (h : Sampled s t)
include h

theorem Sampled.count : t.count = s.count := by
  have e := count_of_bare h
  exact e

theorem Sampled.tb : t.tb = s.tb := by
  have e := tb_of_bare h
  exact e

theorem Sampled.al : t.al = s.al := by
  have e := al_of_bare h
  exact e

theorem Sampled.st : t.st = s.st := by
  have e := st_of_bare h
  exact e

theorem Sampled.sq : t.sq = s.sq := by
  have e := sq_of_bare h
  exact e

theorem Sampled.asmt : t.asmt = s.asmt := by
  have e := asmt_of_bare h
  exact e

theorem Sampled.runTimeAt (count : Nat) : t.runTimeAt count = s.runTimeAt count := by
  simp only [State.runTimeAt, h.tb]

end

end Sys2Proof.Machine

/-! # The timed operations at a sample (O38) -/

namespace Sys2Proof.Machine

/-! ## The position of a pole after a sample -/

/-- The position that the stages of a sample at run time t give pole p, by whether its arc is quenched (R103) and
whether the discrepancy timer trips (R111). -/
def samplePosition (t : Nat) (x : BreakerSettings) (p : Pole) (quenched trips : Bool) (y : Position) : Position :=
  let left := (((y.parted t (x.opening.get p)).forced t x.arcing).closedAt t x.closing).interrupted quenched
  if trips then left.tripped t else left

section
variable {t start : Nat} {x : BreakerSettings} {p : Pole} {quenched trips : Bool}

theorem samplePosition_tripping (h : start + x.opening.get p ≤ t) :
    samplePosition t x p quenched trips (.tripping start) =
      if x.arcing = 0 ∨ quenched = true then .opened else .arcing t := by
  have parted : Position.parted t (x.opening.get p) (.tripping start) = .arcing t := if_pos h
  have forced : Position.forced t x.arcing (.arcing t) = if x.arcing = 0 then .opened else .arcing t := by
    simp [Position.forced]
  unfold samplePosition
  rw [parted, forced]
  by_cases zero : x.arcing = 0
  · simp [zero, Position.closedAt, Position.interrupted, Position.tripped]
  · cases quenched <;> simp [zero, Position.closedAt, Position.interrupted, Position.tripped]

theorem samplePosition_arcing_early (h : t < start + x.arcing) :
    samplePosition t x p quenched trips (.arcing start) = if quenched then .opened else .arcing start := by
  have forced : Position.forced t x.arcing (.arcing start) = .arcing start := if_neg (Nat.not_le.2 h)
  unfold samplePosition Position.parted
  rw [forced]
  cases quenched <;> simp [Position.closedAt, Position.interrupted, Position.tripped]

theorem samplePosition_arcing_late (h : start + x.arcing ≤ t) :
    samplePosition t x p quenched trips (.arcing start) = .opened := by
  have forced : Position.forced t x.arcing (.arcing start) = .opened := if_pos h
  unfold samplePosition Position.parted
  rw [forced]
  simp [Position.closedAt, Position.interrupted, Position.tripped]

theorem samplePosition_closing (h : start + x.closing ≤ t) :
    samplePosition t x p quenched trips (.closing start) = if trips then .tripping t else .closed := by
  have closed : Position.closedAt t x.closing (.closing start) = .closed := if_pos h
  unfold samplePosition Position.parted Position.forced
  rw [closed]
  simp [Position.interrupted, Position.tripped]

end

/-- The discrepancy timer expires at the sample (R110), judged on the positions of stages 1 to 4. -/
def sampleTrips (t : Nat) (s : State) : Bool := discrepancyExpires t (computeWaves t (breakerExpiries t s)).1.bs

section
variable (t : Nat) (s : State)

/-- The breaker when stage 5 begins: the positions of stages 1 to 4. -/
theorem waves_bs :
    (computeWaves t (breakerExpiries t s)).1.bs =
      { s.bs with poles := (expiredPoles t s.bs).mapEach fun p x =>
          x.interrupted (quenches (dropDcAtEntry (breakerExpiries t s)) p) } := by
  have interrupted := (interruptAll t (dropDcAtEntry (breakerExpiries t s))).bs
  rw [dropDcAtEntry_bs, (breakerExpiries_positioned t s).bs] at interrupted
  exact (computeWaves_bs t _).trans interrupted

theorem discrepancyExpires_spring (bs : Breaker) (x : Spring) :
    discrepancyExpires t { bs with spring := x } = discrepancyExpires t bs := rfl

theorem computeSample_bs :
    ∃ phase, (computeSample t s).1.bs =
      { s.bs with
        discrepancy := phase
        spring := s.bs.spring.chargedAt t s.bs.settings.charge
        poles := s.bs.poles.mapEach fun p x =>
          samplePosition t s.bs.settings p (quenches (dropDcAtEntry (breakerExpiries t s)) p) (sampleTrips t s)
            x } := by
  let u := (computeWaves t (breakerExpiries t s)).1
  have charged : (chargeSpring t u).bs = { u.bs with spring := u.bs.spring.chargedAt t u.bs.settings.charge } := by
    have e := bs_of_bare (chargeSpring_bare t u)
    exact e
  have expires : discrepancyExpires t (chargeSpring t u).bs = sampleTrips t s := by
    rw [charged, discrepancyExpires_spring]
    rfl
  obtain ⟨phase, judged⟩ := judgeDiscrepancy_bare t (chargeSpring t u)
  rw [expires, charged] at judged
  have after : (computeSample t s).1.bs = (judgeDiscrepancy t (chargeSpring t u)).bs := by
    rw [computeSample_eq, refreshOutputs_bs]
    simp only [u, computeWaves_eq]
  have final := bs_of_bare judged
  have waves : u.bs = _ := waves_bs t s
  refine ⟨phase, ?_⟩
  rw [after, final, waves]
  cases sampleTrips t s <;> rfl

theorem sampleTrips_iff :
    sampleTrips t s = true ↔
      s.bs.settings.discrepancy ≠ 0 ∧
        disagreement (interruptPoles t (dropDcAtEntry (breakerExpiries t s))).bs.poles = true ∧
        ∃ start, s.bs.discrepancy = .timing start ∧ start + s.bs.settings.discrepancy ≤ t := by
  have waves : (computeWaves t (breakerExpiries t s)).1.bs =
      (interruptPoles t (dropDcAtEntry (breakerExpiries t s))).bs := computeWaves_bs t _
  unfold sampleTrips
  rw [discrepancyExpires_iff, ← waves, waves_bs]

end

/-! ## The breaker after the grid instant -/

/-- The run goes on and the breaker stands, or the run has ended and stopped the breaker (R118). -/
def RunFate (s t : State) : Prop :=
  (t.inRun = s.inRun ∧ t.bs = s.bs) ∨ (s.inRun = true ∧ t.inRun = false ∧ t.bs = s.bs.stopped)

theorem Breaker.stopped_spring (bs : Breaker) : bs.stopped.spring = stopSpring bs.spring := rfl

theorem RunFate.trans {s t u : State} (h : RunFate s t) (k : RunFate t u) : RunFate s u := by
  obtain ⟨hr, hb⟩ | ⟨hs, ht, hb⟩ := h <;> obtain ⟨kr, kb⟩ | ⟨ks, kt, kb⟩ := k
  · exact .inl ⟨kr.trans hr, kb.trans hb⟩
  · exact .inr ⟨hr.symm.trans ks, kt, by rw [kb, hb]⟩
  · exact .inr ⟨hs, kr.trans ht, kb.trans hb⟩
  · rw [ht] at ks
    cases ks

theorem JudgeEffect.fate {s t : State} (hr : s.inRun = true) (h : JudgeEffect s t) : RunFate s t := by
  cases h with
  | moved q _ run => exact .inl ⟨run, rfl⟩
  | ended q _ => exact .inr ⟨hr, runEnd_inRun _ _, runEnd_bs _ _⟩

theorem judgeSampleEvents_fate (count : Nat) (events : List BreakerEvent) {s : State} (hr : s.inRun = true) :
    RunFate s (judgeSampleEvents count events s) := by
  have assessed := assessBreakerEvents_assessed events (s.runTimeAt count) (s.runTimeAt count) s
  have run := assessed.aside.inRun
  have judged := (judgeSample_effect count events _).fate (run.trans hr)
  exact (RunFate.trans (.inl ⟨run, assessed.bs⟩) judged).trans (.inl ⟨rfl, rfl⟩)

/-- R112, R114: a sample that no run end takes. -/
theorem runSample_whole {count : Nat} {s : State} (h : sampleEnd (s.runTimeAt count) s = none) :
    runSample count s =
      let done := computeSample (s.runTimeAt count) (beginSample (s.runTimeAt count) s)
      (judgeSampleEvents count done.2.2 done.1, done.2.1) := by
  unfold runSample
  simp only [h]

/-- The work of the sample at this grid instant, before it is judged. -/
def gridWork (s : State) : State × Vector Int 8 × List BreakerEvent :=
  computeSample s.now (beginSample s.now (takeGrid s))

section
variable {s : State} (h : sampleHere s)
include h

theorem gridInstant_sample :
    gridInstant s =
      let done := (judgeSampleEvents s.count (gridWork s).2.2 (gridWork s).1, (gridWork s).2.1)
      frameInstant .i done.2 (frameInstant .v done.2 (handCodes done)) := by
  obtain ⟨-, -, hr, whole⟩ := h
  have free : sampleEnd ((takeGrid s).runTimeAt s.count) (takeGrid s) = none := whole
  have now : (takeGrid s).runTimeAt s.count = s.now := rfl
  rw [gridInstant_inRun hr, runSample_whole free, now]
  rfl

theorem gridWork_inRun : (gridWork s).1.inRun = true := by
  have begun : (beginSample s.now (takeGrid s)).inRun = true :=
    (beginSample_kept _ (takeGrid s) h.2.2.1).inRun.trans h.2.2.1
  exact (computeSample_aside _ _).inRun.trans begun

theorem gridInstant_fate : RunFate (gridWork s).1 (settle (gridInstant s)) := by
  rw [gridInstant_sample h]
  have judged := judgeSampleEvents_fate s.count (gridWork s).2.2 (gridWork_inRun h)
  have handed (u : State) (codes : Vector Int 8) : RunFate u (handCodes (u, codes)) := .inl ⟨rfl, rfl⟩
  have frames (g : Group) (codes : Vector Int 8) (u : State) : RunFate u (frameInstant g codes u) :=
    (frameInstant_effect g codes u).breaker
  have settled (u : State) : RunFate u (settle u) := .inl ⟨settle_inRun u, (settle_parts u).2.2.2⟩
  exact (judged.trans (handed _ _)).trans ((frames .v _ _).trans ((frames .i _ _).trans (settled _)))

/-- R102 to R104, R108 to R111, R118: a pole after the grid instant. -/
theorem gridInstant_pole (p : Pole) :
    ∃ quenched trips, (plainSample s → (quenched = true ↔ arcCrosses p s)) ∧
      (trips = true → s.bs.settings.discrepancy ≠ 0 ∧
        ∃ began, s.bs.discrepancy = .timing began ∧ began + s.bs.settings.discrepancy ≤ s.now) ∧
      let t := settle (gridInstant s)
      let x := samplePosition s.now s.bs.settings p quenched trips (s.bs.poles.get p)
      (t.inRun = true ∧ t.bs.poles.get p = x) ∨ (t.inRun = false ∧ t.bs.poles.get p = x.resolved) := by
  let u := beginSample s.now (takeGrid s)
  have begun : u.bs = s.bs := beginSample_bs _ _
  obtain ⟨phase, e⟩ := computeSample_bs s.now u
  rw [begun] at e
  refine ⟨quenches (dropDcAtEntry (breakerExpiries s.now u)) p, sampleTrips s.now u, fun plain => ?quenched,
    fun trips => ?trips, ?fate⟩
  case quenched =>
    obtain ⟨-, none, late⟩ := plain
    have same : u = takeGrid s := by
      have due : entryDue (takeGrid s) = .none := none
      simp only [u, beginSample, due]
    have expired := breakerExpiries_positioned s.now u
    have sq : (breakerExpiries s.now u).sq = s.sq := by rw [expired.sampled.sq, same]; rfl
    have ws : (dropDcAtEntry (breakerExpiries s.now u)).ws.live = s.ws.live := by
      unfold dropDcAtEntry
      rw [sq, late, if_neg Bool.false_ne_true, expired.ws, same]
      rfl
    rw [← quenches_iff]
    simp only [quenches, ws]
  case trips =>
    obtain ⟨nonzero, -, timing⟩ := (sampleTrips_iff s.now u).1 trips
    rw [begun] at nonzero timing
    exact ⟨nonzero, timing⟩
  case fate =>
    have work : (gridWork s).1.bs.poles.get p =
        samplePosition s.now s.bs.settings p (quenches (dropDcAtEntry (breakerExpiries s.now u)) p)
          (sampleTrips s.now u) (s.bs.poles.get p) := by
      unfold gridWork
      rw [e, mapEach_get]
    obtain ⟨run, bs⟩ | ⟨-, run, bs⟩ := gridInstant_fate h
    · exact .inl ⟨run.trans (gridWork_inRun h), by rw [bs, work]⟩
    · refine .inr ⟨run, ?_⟩
      rw [bs, ← work]
      exact (map_resolved_get _ p).trans (resolved_eq _).symm

theorem gridInstant_spring {start : Nat} (hs : s.bs.spring = .charging (some start))
    (late : start + s.bs.settings.charge ≤ s.now) : (settle (gridInstant s)).bs.spring = .charged := by
  let u := beginSample s.now (takeGrid s)
  have begun : u.bs = s.bs := beginSample_bs _ _
  obtain ⟨phase, e⟩ := computeSample_bs s.now u
  rw [begun, hs] at e
  have work : (gridWork s).1.bs.spring = .charged := by
    unfold gridWork
    rw [e]
    exact if_pos late
  obtain ⟨-, bs⟩ | ⟨-, -, bs⟩ := gridInstant_fate h
  · rw [bs, work]
  · rw [bs, Breaker.stopped_spring, work]
    rfl

end

/-! ## The breaker events of a sample (R113, R114) -/

section
variable (before after : PerPole Position) (allClosed tripped : Bool)

/-- A breaker event of a sample is one of the positions, ALL_CLOSED or DISCREPANCY_TRIP. -/
theorem mem_sampleEvents (b : BreakerEvent) :
    b ∈ sampleEvents before after allClosed tripped ↔
      b ∈ poleEvents before after ∨ (b = .allClosed ∧ allClosed = true) ∨ (b = .discrepancyTrip ∧ tripped = true) := by
  unfold sampleEvents
  cases allClosed <;> cases tripped <;> simp

theorem not_mem_poleEvents {b : BreakerEvent} (hp : ∀ p, b ≠ .poleOpen p) (hany : b ≠ .anyOpen) (hall : b ≠ .allOpen) :
    b ∉ poleEvents before after := by
  unfold poleEvents
  dsimp only
  simp only [List.mem_append, List.mem_map, not_or]
  refine ⟨⟨?_, ?_⟩, ?_⟩
  · rintro ⟨p, -, e⟩
    exact hp p e.symm
  · split <;> simp [hany]
  · split <;> simp [hall]

/-- R113's table. -/
def eventTable : List BreakerEvent :=
  [.poleOpen .a, .poleOpen .b, .poleOpen .c, .anyOpen, .allOpen, .allClosed, .closeBlocked, .closeRefused,
    .discrepancyTrip]

theorem sampleEvents_sublist : (sampleEvents before after allClosed tripped).Sublist eventTable := by
  have optional (c : Prop) [Decidable c] (b : BreakerEvent) : (if c then [b] else []).Sublist [b] := by
    split
    · exact .refl _
    · exact List.nil_sublist _
  have poles : ((newlyOpen before after).map BreakerEvent.poleOpen).Sublist
      [.poleOpen .a, .poleOpen .b, .poleOpen .c] := List.filter_sublist.map _
  unfold sampleEvents poleEvents
  exact (((poles.append (optional _ .anyOpen)).append (optional _ .allOpen)).append
    (optional _ .allClosed)).append ((optional _ .discrepancyTrip).trans (by decide))

theorem sampleEvents_ordered :
    ((sampleEvents before after allClosed tripped).map (codeIn eventTable)).Pairwise (· < ·) :=
  .sublist ((sampleEvents_sublist ..).map _) (by decide)

end

/-- The breaker events that the work of a sample hands on (R114). -/
theorem computeSample_events (t : Nat) (s : State) :
    (computeSample t s).2.2 =
      sampleEvents s.bs.poles (computeSample t s).1.bs.poles (closesAll t s.bs (breakerExpiries t s).bs)
        (sampleTrips t s) := by
  unfold computeSample sampleTrips
  dsimp only
  rw [refreshOutputs_bs]

/-! ## The statement -/

/-- A pole that arcs unless something opens it, with a run end resolving it to OPEN (R118). -/
theorem arc_of_fate {opens : Prop} [Decidable opens] {start : Nat} {run : Bool} {x : Position}
    (fate : (run = true ∧ x = if opens then .opened else .arcing start) ∨
      (run = false ∧ x = (if opens then Position.opened else .arcing start).resolved)) :
    (x = .arcing start ∨ x = .opened) ∧ (opens ∨ run = false → x = .opened) ∧
      (¬ opens → run = true → x = .arcing start) := by
  obtain ⟨rfl, rfl⟩ | ⟨rfl, rfl⟩ := fate <;> by_cases h : opens <;> simp [h, Position.resolved, Position.isMoving]

/-- Settles O38: the rows, the stages one by one, stages 1 to 3 together, and the events. -/
theorem timedOperationsEndAtTheSample : Obligations.TimedOperationsEndAtTheSample := by
  refine ⟨fun s h => ⟨fun p start hp late => ?parting, fun p start hp early => ?arcing, fun p start hp late => ?forcing,
    fun p start hp late => ?closing, fun start hs late => ?charge⟩, fun t p s => ?stages, fun t s => ?expiries,
    fun t s => ?events⟩
  case parting =>
    obtain ⟨quenched, trips, crosses, -, fate⟩ := gridInstant_pole h p
    rw [hp, samplePosition_tripping late] at fate
    obtain ⟨either, opens, stays⟩ := arc_of_fate fate
    refine ⟨_, exec_due h.1 rfl ((partingDue_iff h.1 p).2 ⟨h, start, hp, late⟩), either, fun plain ends => ?_,
      fun plain positive misses run => ?_⟩
    · exact opens (ends.imp_left fun hc => .inr ((crosses plain).2 hc))
    · exact stays (not_or.2 ⟨Nat.ne_of_gt positive, fun e => misses ((crosses plain).1 e)⟩) run
  case arcing =>
    obtain ⟨quenched, trips, crosses, -, fate⟩ := gridInstant_pole h p
    rw [hp, samplePosition_arcing_early early] at fate
    obtain ⟨-, opens, stays⟩ := arc_of_fate fate
    refine ⟨_, exec_gridInstant h.1 h.2.1, fun plain ends => ?_, fun plain misses run => ?_⟩
    · exact opens (ends.imp_left (crosses plain).2)
    · exact stays (fun e => misses ((crosses plain).1 e)) run
  case forcing =>
    obtain ⟨quenched, trips, crosses, -, fate⟩ := gridInstant_pole h p
    rw [hp, samplePosition_arcing_late late] at fate
    refine ⟨_, exec_due h.1 rfl ((forcingDue_iff h.1 p).2 ⟨h, start, hp, late⟩), ?_⟩
    obtain ⟨-, e⟩ | ⟨-, e⟩ := fate <;> exact e
  case closing =>
    obtain ⟨quenched, trips, -, expires, fate⟩ := gridInstant_pole h p
    rw [hp, samplePosition_closing late] at fate
    refine ⟨_, exec_due h.1 rfl ((closingDue_iff h.1 p).2 ⟨h, start, hp, late⟩), ?_⟩
    cases trips with
    | false => obtain ⟨-, e⟩ | ⟨-, e⟩ := fate <;> simp [e, Position.resolved, Position.isMoving]
    | true =>
      obtain ⟨run, e⟩ | ⟨run, e⟩ := fate
      · exact ⟨.inr (.inl e), fun _ => expires rfl, fun opened => by rw [e] at opened; cases opened⟩
      · exact ⟨.inr (.inr e), fun _ => expires rfl, fun _ => run⟩
  case charge =>
    exact ⟨_, exec_due h.1 rfl ((chargeDue_iff h.1).2 ⟨h, start, hs, late⟩), gridInstant_spring h hs late⟩
  case stages =>
    refine ⟨fun start hp => partContacts_tripping hp, fun start hp => ⟨forceOpen_arcing hp, fun hc => ?_, fun hc => ?_⟩,
      fun start hp => finishClosing_closing hp, fun start hs => chargeSpring_charging hs, partContacts_other,
      fun hp => ⟨forceOpen_other hp, interruptPole_other hp⟩, finishClosing_other, chargeSpring_other⟩
    · exact (interruptPole_arcing hp).trans (if_pos ((quenches_iff s p).2 hc))
    · exact (interruptPole_arcing hp).trans (if_neg fun e => hc ((quenches_iff s p).1 e))
  case expiries =>
    intro poles u closes
    have ends := breakerExpiries_eq t s
    have all : closesAll t s.bs (timedPoles t s).bs = true ↔ closes := closesAll_iff t s.bs (timedPoles t s).bs
    exact ⟨fun hc => ends.trans (if_pos (all.2 hc)), fun hc => ends.trans (if_neg fun e => hc (all.1 e)), rfl⟩
  case events =>
    intro u v after events opens
    have given : events = _ := computeSample_events t s
    have trips := sampleTrips_iff t s
    have judged : interruptPoles t (dropDcAtEntry (breakerExpiries t s)) = v := rfl
    have closes := closesAll_iff t s.bs u.bs
    refine ⟨computeSample_eq t s, ?_⟩
    rw [judged] at trips
    rw [given]
    refine ⟨fun p => ?_, ?_, ?_, ?_, ?_, ?_, ?_, sampleEvents_ordered ..⟩
    · simp [mem_sampleEvents, poleOpen_mem, after, opens]
    · simp [mem_sampleEvents, anyOpen_mem, after, opens]
    · simp [mem_sampleEvents, allOpen_mem, after, opens]
    · simpa [mem_sampleEvents, not_mem_poleEvents] using closes
    · simpa [mem_sampleEvents, not_mem_poleEvents] using trips
    · simp [mem_sampleEvents, not_mem_poleEvents]
    · simp [mem_sampleEvents, not_mem_poleEvents]

end Sys2Proof.Machine

/-! # A sample's set judged, and the whole grid instant of a run (R112, R114, R158 to R160) -/

namespace Sys2Proof.Machine

/-! ## The lowest match -/

section
variable {m : Trigger → Bool} {exits : List Exit}

theorem firstMatch_none (h : ∀ y ∈ exits, m y.trigger = false) : firstMatch m exits = none := by
  unfold firstMatch
  rw [List.find?_eq_none]
  rintro ⟨y, i⟩ hy
  simp [h y (List.fst_mem_of_mem_zipIdx hy)]

theorem firstMatch_some {i : Nat} {y : Exit} (hy : exits[i]? = some y) (hm : m y.trigger = true)
    (lower : ∀ j z, j < i → exits[j]? = some z → m z.trigger = false) : firstMatch m exits = some (y, i) := by
  unfold firstMatch
  obtain ⟨hi, rfl⟩ := List.getElem?_eq_some_iff.1 hy
  rw [List.find?_eq_some_iff_getElem]
  refine ⟨hm, i, by simpa using hi, by simp, fun j hj => ?_⟩
  have := lower j exits[j] hj (List.getElem?_eq_getElem _)
  simp [this]

end

/-! ## The sample's set (R158) -/

theorem ofNat_six (i : Fin 6) : Fin.ofNat 6 i.val = i := Fin.ext (Nat.mod_eq_of_lt i.isLt)

/-- The guard over (R160). -/
def unguarded (s : State) : State := { s with sq := { s.sq with guard := none } }

theorem unguarded_st (s : State) : (unguarded s).st = s.st := rfl

section
variable {count : Nat} {events : List BreakerEvent} {n : Fin 24} {e : Entry} {s : State} (hr : s.sq.state = .running)
  (ht : s.sq.taken = none) (hc : s.sq.current = some n) (he : s.st.entries[n] = some e)
include hr ht hc he

theorem judgeSample_judges : s.judges = true ∧ s.currentEntry = some e :=
  ⟨(judges_iff s).2 ⟨hr, ht⟩, currentEntry_eq_some.2 ⟨n, hc, he⟩⟩

theorem judgeSample_unmatched (hf : firstMatch (sampleMatches s count events) e.exits = none)
    (hg : ∀ g, s.sq.guard = some g → s.runTimeAt count < g.expiry) : judgeSample count events s = s := by
  obtain ⟨judges, entry⟩ := judgeSample_judges hr ht hc he
  unfold judgeSample
  simp only [judges, if_true, entry, hf]
  split
  · next g guard => exact if_pos (hg g guard)
  · rfl

theorem judgeSample_takes {i : Nat} {y : Exit}
    (hf : firstMatch (sampleMatches s count events) e.exits = some (y, i)) (hg : s.sq.guard = none) :
    judgeSample count events s = takeExit i y (s.runTimeAt count) none s := by
  obtain ⟨judges, entry⟩ := judgeSample_judges hr ht hc he
  unfold judgeSample
  simp only [judges, if_true, entry, hf, hg]

theorem judgeSample_latches {i : Nat} {y : Exit} {g : Guard}
    (hf : firstMatch (sampleMatches s count events) e.exits = some (y, i)) (hg : s.sq.guard = some g)
    (early : s.runTimeAt count < g.expiry) : judgeSample count events s = latchExit g i (s.runTimeAt count) s := by
  obtain ⟨judges, entry⟩ := judgeSample_judges hr ht hc he
  unfold judgeSample
  simp only [judges, if_true, entry, hf, hg, early]

theorem judgeSample_expires {g : Guard} (hg : s.sq.guard = some g) (late : g.expiry ≤ s.runTimeAt count) :
    judgeSample count events s =
      expireGuard e g.latch (firstMatch (sampleMatches s count events) e.exits) (s.runTimeAt count) s := by
  obtain ⟨judges, entry⟩ := judgeSample_judges hr ht hc he
  unfold judgeSample
  simp only [judges, if_true, entry, hg, Nat.not_lt.2 late, if_false]

end

/-! ## The latch and the guard's expiry (R159, R160) -/

theorem latchExit_eq (g : Guard) (i : Fin 6) (t : Nat) (s : State) :
    latchExit g i.val t s =
      let latch := g.latch.elim ⟨i, t⟩ fun l => if i < l.index then ⟨i, t⟩ else l
      { s with sq := { s.sq with guard := some { g with latch := some latch } } } := by
  unfold latchExit
  rw [ofNat_six]
  cases g.latch <;> rfl

section
variable (e : Entry) (t : Nat) (s : State)

theorem expireGuard_empty : expireGuard e none none t s = unguarded s := rfl

theorem expireGuard_found (y : Exit) (i : Nat) :
    expireGuard e none (some (y, i)) t s = takeExit i y t none (unguarded s) := rfl

variable {l : Latch} {z : Exit} (hz : e.exits[l.index.val]? = some z)
include hz

theorem expireGuard_latched :
    expireGuard e (some l) none t s = takeExit l.index.val z t (some l.causeTime) (unguarded s) := by
  unfold expireGuard
  simp only [hz]
  rfl

theorem expireGuard_lower {i : Nat} (y : Exit) (h : i < l.index.val) :
    expireGuard e (some l) (some (y, i)) t s = takeExit i y t none (unguarded s) := by
  unfold expireGuard
  simp only [hz, if_pos h]
  rfl

theorem expireGuard_higher {i : Nat} (y : Exit) (h : l.index.val ≤ i) :
    expireGuard e (some l) (some (y, i)) t s = takeExit l.index.val z t (some l.causeTime) (unguarded s) := by
  unfold expireGuard
  simp only [hz, if_neg (Nat.not_lt.2 h)]
  rfl

end

/-! ## The expiry sample at which nothing matches of itself -/

/-- R161: a taken exit to END, or to a READY entry. -/
theorem takeExit_taken {y : Exit} {s : State} (index : Fin 6) (t : Nat) (cause : Option Nat)
    (hy : y.target = .finish ∨ ∃ m e, y.target = .state m ∧ s.st.entries[m] = some e) :
    ∃ q, takeExit index.val y t cause s = { s with sq := q } ∧ q.guard = none ∧
      q.taken = some ⟨y.target, index, t, cause⟩ := by
  unfold takeExit
  rw [ofNat_six]
  obtain finish | ⟨m, e, target, ready⟩ := hy
  · simp only [finish]
    exact ⟨_, rfl, rfl, rfl⟩
  · simp only [target, ready]
    split
    · exact ⟨_, rfl, rfl, rfl⟩
    · exact ⟨_, rfl, rfl, rfl⟩

theorem decideItem_entryTime (k : Nat) (x : ItemRun) (d : Decision) (measured : Option Int) (head : Nat) (s : State) :
    (decideItem k x d measured head s).entryTime = s.entryTime := by
  unfold decideItem State.entryTime
  cases h : s.asmt.visit with
  | none => simp only [h]
  | some v => simp only [offerRun_asmt, tally_visit]

theorem judgeItem_entryTime (x : Subject) (time head : Nat) (s : State) (k : Nat) :
    (judgeItem x time head s k).entryTime = s.entryTime := by
  unfold judgeItem
  split
  · rfl
  · split
    · rfl
    · split
      · dsimp only
        split
        · exact decideItem_entryTime _ _ _ _ _ s
        · rfl
      · rfl

/-- The decisions of a visit leave its entry time. -/
theorem assessBreakerEvents_entryTime (events : List BreakerEvent) (time head : Nat) (s : State) :
    (assessBreakerEvents events time head s).entryTime = s.entryTime := by
  refine foldl_keeps (fun u b => ?_) events s
  split
  · exact foldl_keeps (judgeItem_entryTime _ time head) _ u
  · rfl

theorem JudgeEffect.al {s t : State} (h : JudgeEffect s t) : t.al = s.al := by
  cases h with
  | moved q _ _ => rfl
  | ended q _ => exact runEnd_al _ _

theorem judgeSampleEvents_sq (count : Nat) (events : List BreakerEvent) (s : State) :
    (judgeSampleEvents count events s).sq =
      { (judgeSample count events (assessBreakerEvents events (s.runTimeAt count) (s.runTimeAt count) s)).sq with
        entrySample := false } := rfl

theorem judgeSampleEvents_al (count : Nat) (events : List BreakerEvent) (s : State) :
    (judgeSampleEvents count events s).al = s.al :=
  (judgeSample_effect count events _).al.trans (assessBreakerEvents_assessed events _ _ s).al

theorem beginSample_al (t : Nat) (s : State) : (beginSample t s).al = s.al := by
  unfold beginSample
  split
  · exact enterState_al _ t s
  · rfl

theorem gridWork_al (s : State) : (gridWork s).1.al = s.al :=
  (computeSample_sampled _ _).al.trans (beginSample_al _ (takeGrid s))

theorem handCodes_al (done : State × Vector Int 8) : (handCodes done).al = done.1.al := rfl

/-- A grid instant of a run that loses no link leaves the sequencer as the sample has left it. -/
theorem gridInstant_sq {s : State} (h : sampleHere s) (hv : spared s.al.v) (hi : spared s.al.i) :
    (settle (gridInstant s)).sq = (judgeSampleEvents s.count (gridWork s).2.2 (gridWork s).1).sq := by
  rw [(settle_parts _).1, gridInstant_sample h]
  dsimp only
  rw [frames_spared]
  · rfl
  · rwa [handCodes_al, judgeSampleEvents_al, gridWork_al]
  · rwa [handCodes_al, judgeSampleEvents_al, gridWork_al]

section
variable {s : State} (h : sampleHere s) (ht : s.sq.taken = none)
include ht

theorem beginSample_untaken (t : Nat) : beginSample t s = s := by
  have due : entryDue s = none := by
    unfold entryDue
    simp only [ht]
  simp only [beginSample, due]

/-- Where no exit has been taken before it, the sample is judged in the sequencer's state of before. -/
theorem gridWork_sampled : Sampled (takeGrid s) (gridWork s).1 := by
  have begun := beginSample_untaken (s := takeGrid s) ht s.now
  unfold gridWork
  rw [begun]
  exact computeSample_sampled _ _

include h

theorem guardDue_untaken {g : Guard} (hr : s.sq.state = .running) (hg : s.sq.guard = some g) (late : g.expiry ≤ s.now) :
    guardDue s = true := by
  have sq : (judgedState s).sq = s.sq := by
    unfold judgedState
    rw [(computeSample_sampled _ _).sq, beginSample_untaken ht]
  refine (guardDue_iff h.1).2 ?_
  rw [sq]
  exact ⟨⟨h, hr, ht⟩, g, hg, late⟩

end

/-- No exit matches of itself at a sample that is not the entry sample, before every AFTER time, where no exit names a
breaker event (R158). -/
theorem sampleMatches_none {count : Nat} {events : List BreakerEvent} {s : State} {y : Exit}
    (entry : s.sq.entrySample = false) (quiet : ∀ b, y.trigger ≠ .breaker b)
    (early : ∀ a, y.trigger = .after a → s.runTimeAt count < s.entryTime + a) :
    sampleMatches s count events y.trigger = false := by
  cases trigger : y.trigger with
  | after a =>
    rw [← Bool.not_eq_true]
    intro fires
    have reached := ((afterFires_iff s count a).1 fires).1
    have := early a trigger
    omega
  | breaker b => exact absurd trigger (quiet b)
  | mark k => simp only [sampleMatches, entry, Bool.false_and]
  | count c => simp only [sampleMatches, entry, Bool.false_and]
  | edge i d => rfl
  | sync => rfl
  | go => rfl

/-- Settles O48: the expiry sample at which nothing matches of itself, a sample's set in general, and the whole grid
instant. -/
theorem guardExpiryTakesTheLatch : Obligations.GuardExpiryTakesTheLatch := by
  refine ⟨fun n e g s h hr ht hg late entry hc he quiet hv hi => ?expiry,
    fun count events n e s hr ht hc he => ?judged, fun count events s => ?set, fun count events s => rfl,
    fun count s whole => ?sample, fun s h => ?instant⟩
  case expiry =>
    let events := (gridWork s).2.2
    let u := assessBreakerEvents events s.now s.now (gridWork s).1
    have work := gridWork_sampled ht
    have assessed : Assessed (gridWork s).1 u := assessBreakerEvents_assessed events s.now s.now _
    have sq : u.sq = s.sq := assessed.sq.trans work.sq
    have st : u.st = s.st := assessed.st.trans work.st
    have now : u.runTimeAt s.count = s.now := by
      simp only [State.runTimeAt, assessed.tb, work.tb]
      rfl
    have entryTime : u.entryTime = s.entryTime := by
      refine (assessBreakerEvents_entryTime _ _ _ _).trans ?_
      simp only [State.entryTime, work.asmt]
      rfl
    have unmatched : firstMatch (sampleMatches u s.count events) e.exits = none := firstMatch_none fun y hy => by
      obtain ⟨named, early⟩ := quiet y hy
      refine sampleMatches_none (by rw [sq]; exact entry) named fun a ha => ?_
      rw [now, entryTime]
      exact early a ha
    have expires : judgeSample s.count events u = expireGuard e g.latch none s.now u := by
      have judged := judgeSample_expires (events := events) (s := u) (by rw [sq]; exact hr) (by rw [sq]; exact ht)
        (by rw [sq]; exact hc) (by rw [st]; exact he) (by rw [sq]; exact hg) (now ▸ late)
      rwa [unmatched, now] at judged
    refine ⟨_, exec_due h.1 rfl (guardDue_untaken h ht hr hg late), ?_⟩
    have after : (settle (gridInstant s)).sq = { (judgeSample s.count events u).sq with entrySample := false } := by
      have workNow : (gridWork s).1.runTimeAt s.count = s.now := work.runTimeAt s.count
      rw [gridInstant_sq h hv hi, judgeSampleEvents_sq, workNow]
    rw [after, expires]
    constructor
    · intro latch
      rw [latch, expireGuard_empty]
      unfold unguarded
      rw [sq]
      exact ⟨rfl, ht, hr⟩
    · intro l y latch hy target
      obtain ⟨q, taken, guard, exit⟩ := takeExit_taken (s := unguarded u) l.index s.now (some l.causeTime)
        (by rwa [unguarded_st, st])
      rw [latch, expireGuard_latched e s.now u hy, taken]
      exact ⟨guard, exit⟩
  case judged =>
    intro m t none' first free
    have lowest {i : Fin 6} {y : Exit} (hf : first i y) : firstMatch m e.exits = some (y, i.val) :=
      firstMatch_some hf.1 hf.2.1 hf.2.2
    refine ⟨fun hg => ⟨fun hn => ?_, fun i y hf => ?_⟩, fun g hg early => ⟨fun hn => ?_, fun i y hf => ?_⟩,
      fun g hg late => ⟨fun hl hn => ?_, fun i y hl hf => ?_, fun l z hl hz =>
        ⟨fun hn => ?_, fun i y hf lower => ?_, fun i y hf higher => ?_⟩⟩⟩
    · exact judgeSample_unmatched hr ht hc he (firstMatch_none hn) (by simp [hg])
    · exact judgeSample_takes hr ht hc he (lowest hf) hg
    · exact judgeSample_unmatched hr ht hc he (firstMatch_none hn) (by simpa [hg] using early)
    · rw [judgeSample_latches hr ht hc he (lowest hf) hg early, latchExit_eq]
      cases g.latch <;> rfl
    · rw [judgeSample_expires hr ht hc he hg late, hl, firstMatch_none hn]
      rfl
    · rw [judgeSample_expires hr ht hc he hg late, hl, lowest hf]
      rfl
    · rw [judgeSample_expires hr ht hc he hg late, hl, firstMatch_none hn]
      exact expireGuard_latched e t s hz
    · rw [judgeSample_expires hr ht hc he hg late, hl, lowest hf]
      exact expireGuard_lower e t s hz y lower
    · rw [judgeSample_expires hr ht hc he hg late, hl, lowest hf]
      exact expireGuard_higher e t s hz y higher
  case set =>
    refine ⟨afterFires_iff s count, fun b => ?_, fun k => ?_, fun c => ?_, fun _ _ => rfl, rfl, rfl⟩
    all_goals simp [sampleMatches]
  case sample => exact runSample_whole whole
  case instant =>
    intro taken done coded
    rw [exec_gridInstant h.1 h.2.1, gridInstant_inRun h.2.2.1]
    rfl

end Sys2Proof.Machine

/-! # The AC value and the codes (R68, R74) -/

namespace Sys2Proof.Machine

/-! ## The sine of a phase (R68) -/

theorem sineCode_bounds (a : Nat) (theta : Word) :
    -(a : Int) ≤ sineCode a theta ∧ sineCode a theta ≤ a := by
  have magnitude : sineMagnitude a theta ≤ a := Nat.min_le_left _ _
  unfold sineCode
  split <;> omega

theorem sineCode_lowHalf {a : Nat} {theta : Word} (h : theta.toNat < 2 ^ 31) :
    sineCode a theta = sineMagnitude a theta :=
  if_pos h

theorem sineCode_highHalf {a : Nat} {theta : Word} (h : 2 ^ 31 ≤ theta.toNat) :
    sineCode a theta = -(sineMagnitude a theta : Int) := if_neg (Nat.not_lt.2 h)

theorem sineMagnitude_of_folded {a : Nat} {theta eta : Word} (h : foldedPhase theta = foldedPhase eta) :
    sineMagnitude a theta = sineMagnitude a eta := by
  unfold sineMagnitude
  rw [h]

theorem sineMagnitude_zero {a : Nat} {theta : Word} (h : foldedPhase theta = 0) : sineMagnitude a theta = 0 := by
  have none (d : Nat) : roundNat 0 d = 0 := by
    unfold roundNat
    rcases d with _ | d
    · rfl
    · exact Nat.div_eq_of_lt (by omega)
  unfold sineMagnitude
  simp only [h, Nat.mul_zero, Nat.zero_mul, none, Nat.min_zero]

/-- The sine changes its sign at half a turn. -/
theorem sineCode_halfTurn (a : Nat) (theta : Word) : sineCode a (theta + 0x80000000) = -sineCode a theta := by
  have turned : (theta + 0x80000000).toNat = (theta.toNat + 2 ^ 31) % 2 ^ 32 := BitVec.toNat_add _ _
  have small : theta.toNat < 2 ^ 32 := theta.isLt
  have folded : sineMagnitude a (theta + 0x80000000) = sineMagnitude a theta := sineMagnitude_of_folded (by
    have same : (theta + 0x80000000).toNat % 2 ^ 31 = theta.toNat % 2 ^ 31 := by omega
    unfold foldedPhase
    rw [same])
  by_cases low : theta.toNat < 2 ^ 31
  · rw [sineCode_lowHalf low, sineCode_highHalf (by omega), folded]
  · rw [sineCode_lowHalf (theta := theta + 0x80000000) (by omega), sineCode_highHalf (Nat.not_lt.1 low), folded,
      neg_neg]

/-- The sine is the same at a phase and at half a turn less it. -/
theorem sineCode_reflected (a : Nat) (theta : Word) : sineCode a (0x80000000 - theta) = sineCode a theta := by
  have turned : (0x80000000 - theta).toNat = (2 ^ 32 - theta.toNat + 2 ^ 31) % 2 ^ 32 := BitVec.toNat_sub _ _
  have small : theta.toNat < 2 ^ 32 := theta.isLt
  have folded : foldedPhase (0x80000000 - theta) = foldedPhase theta := by
    unfold foldedPhase
    dsimp only
    split_ifs <;> omega
  by_cases zero : foldedPhase theta = 0
  · have none : sineMagnitude a (0x80000000 - theta) = 0 := sineMagnitude_zero (folded.trans zero)
    unfold sineCode
    rw [none, sineMagnitude_zero zero]
    split_ifs <;> rfl
  · have inside : theta.toNat ≠ 0 ∧ theta.toNat ≠ 2 ^ 31 := by
      unfold foldedPhase at zero
      constructor
      · intro e
        simp [e] at zero
      · intro e
        simp [e] at zero
    by_cases low : theta.toNat < 2 ^ 31
    · rw [sineCode_lowHalf low, sineCode_lowHalf (by omega), sineMagnitude_of_folded folded]
    · rw [sineCode_highHalf (by omega), sineCode_highHalf (by omega), sineMagnitude_of_folded folded]

/-- The AC value of a quarter turn: within less than 1 of the amplitude, so the amplitude itself. -/
theorem sineCode_quarterTurn {a : Nat} (ha : a ≤ 32767) : sineCode a 0x40000000 = a := by
  have near := sineCode_near a ha 0x40000000
  have quarter : 2 * Real.pi * ((0x40000000 : Word).toNat : ℝ) / 2 ^ 32 = Real.pi / 2 := by
    have value : (0x40000000 : Word).toNat = 2 ^ 30 := rfl
    rw [value]
    push_cast
    ring
  rw [quarter, Real.sin_pi_div_two, mul_one] at near
  have small : |((sineCode a 0x40000000 - a : Int) : ℝ)| < 1 := by
    push_cast
    exact near.trans_lt (by norm_num)
  have distance : |sineCode a 0x40000000 - (a : Int)| < 1 := by exact_mod_cast small
  have := Int.abs_lt_one_iff.1 distance
  omega

/-! ## The codes (R74) -/

theorem clampInt_spec {lo hi : Int} (h : lo ≤ hi) (y : Int) :
    (lo ≤ clampInt lo hi y ∧ clampInt lo hi y ≤ hi) ∧ (lo ≤ y → y ≤ hi → clampInt lo hi y = y) ∧
      (y < lo → clampInt lo hi y = lo) ∧ (hi < y → clampInt lo hi y = hi) := by
  unfold clampInt
  split_ifs <;> omega

theorem sampleCodes_get (s : State) (ch : Fin 8) :
    (sampleCodes s)[ch] =
      clampInt (-(s.ws.settings[ch].limit : Int)) s.ws.settings[ch].limit
        (roundDiv (sampleValue s ch * s.ws.settings[ch].gain) 32768 + s.ws.settings[ch].offset) := by
  unfold sampleCodes
  simp only [Fin.getElem_fin, Vector.getElem_ofFn]
  rfl

/-! ## The values of a sample (R69 to R73) -/

theorem channelSum_voltage {ch : Fin 8} (h : isCurrent ch = false) (x : LiveRecord) :
    (channelSum ch x).1 = sineCode (x.aFix / 65536).toNat x.theta := by
  unfold channelSum
  rw [h]
  rfl

theorem isOpenClass_iff (s : State) (p : Pole) : (s.bs.poles.get p).isOpenClass = true ↔ poleOpen p s := by
  unfold poleOpen
  cases s.bs.poles.get p <;> simp [Position.isOpenClass]

/-- The voltage channel of a pole (R52). -/
def voltageChannel : Pole → Fin 8
  | .a => 0
  | .b => 1
  | .c => 2

theorem poleOf_currentChannel (p : Pole) : poleOf (currentChannel p) = some p := by cases p <;> rfl

theorem poleOf_voltageChannel (p : Pole) : poleOf (voltageChannel p) = some p := by cases p <;> rfl

theorem isCurrent_voltageChannel (p : Pole) : isCurrent (voltageChannel p) = false := by cases p <;> rfl

theorem channelOpen_of_pole {ch : Fin 8} {p : Pole} (h : poleOf ch = some p) (s : State) :
    channelOpen s.bs.poles ch = true ↔ poleOpen p s := by
  unfold channelOpen
  simp only [h]
  exact isOpenClass_iff s p

theorem channelOpen_of_none {ch : Fin 8} (h : poleOf ch = none) (s : State) : channelOpen s.bs.poles ch = false := by
  unfold channelOpen
  simp only [h]

section
variable {s : State} {ch : Fin 8}

theorem ownValue_shut (h : channelOpen s.bs.poles ch ≠ true) (x : LiveRecord) :
    ownValue s.bs ch x = (channelSum ch x).1 := if_neg h

theorem ownValue_openCurrent (h : channelOpen s.bs.poles ch = true) (hc : isCurrent ch = true) (x : LiveRecord) :
    ownValue s.bs ch x = 0 := (if_pos h).trans (if_pos hc)

theorem ownValue_openLine (h : channelOpen s.bs.poles ch = true) (hc : isCurrent ch = false)
    (hs : s.bs.settings.side = .line) (x : LiveRecord) :
    ownValue s.bs ch x = sineCode s.bs.settings.openAmp x.theta := by
  unfold ownValue
  simp only [h, hc, hs, if_true, Bool.false_eq_true, if_false]

theorem ownValue_openBus (h : channelOpen s.bs.poles ch = true) (hc : isCurrent ch = false)
    (hs : s.bs.settings.side = .bus) (x : LiveRecord) : ownValue s.bs ch x = (channelSum ch x).1 := by
  unfold ownValue
  simp only [h, hc, hs, if_true, Bool.false_eq_true, if_false]

theorem sampleValue_own (h : isResidual s.ws.ieMode ch = false) :
    sampleValue s ch = ownValue s.bs ch s.ws.live[ch] := if_neg (Bool.eq_false_iff.1 h)

end

/-! ## Clip episodes (R77, R78) -/

theorem limitedCode_ne_iff (x : ChannelSettings) (y : Int) :
    limitedCode x y ≠ y ↔ y < -(x.limit : Int) ∨ (x.limit : Int) < y := by
  unfold limitedCode clampInt
  split_ifs <;> omega

theorem channelSum_limited (ch : Fin 8) (x : LiveRecord) :
    (channelSum ch x).2 = true ↔
      4 ≤ ch.val ∧ (sineCode (x.aFix / 65536).toNat x.theta + Int.tdiv x.d 65536 < -32767 ∨
        32767 < sineCode (x.aFix / 65536).toNat x.theta + Int.tdiv x.d 65536) := by
  unfold channelSum
  rw [truncDiv_nat]
  by_cases current : 4 ≤ ch.val
  · rw [if_pos (show isCurrent ch = true from decide_eq_true current)]
    dsimp only
    split_ifs with above below
    · simp [current, above]
    · simp [current, below]
    · simp [above, below]
  · rw [if_neg (show isCurrent ch ≠ true from fun e => current (of_decide_eq_true e))]
    simp [current]

section
variable {t : Nat} {s : State} {ch : Fin 8}

theorem isClipped_iff :
    isClipped s ch = true ↔
      limitedCode s.ws.settings[ch] (rawCode s.ws.settings[ch] (sampleValue s ch)) ≠
          rawCode s.ws.settings[ch] (sampleValue s ch) ∨
        (channelSum ch s.ws.live[ch]).2 = true := by
  simp [isClipped]

theorem clipEpisode_opens (hc : isClipped s ch = true) (hf : s.ws.live[ch].clip = false) :
    clipEpisode t s ch =
      let y := rawCode s.ws.settings[ch] (sampleValue s ch)
      offerRun t (.clip ch true (if limitedCode s.ws.settings[ch] y ≠ y then some y else none)) (putClip ch true s) :=
  if_pos ⟨hc, hf⟩

theorem clipEpisode_closes (hc : isClipped s ch = false) (hf : s.ws.live[ch].clip = true) :
    clipEpisode t s ch = offerRun t (.clip ch false none) (putClip ch false s) := by
  have notOpens : ¬ (isClipped s ch = true ∧ s.ws.live[ch].clip = false) := by simp [hc]
  exact (if_neg notOpens).trans (if_pos ⟨hc, hf⟩)

theorem clipEpisode_stands (h : isClipped s ch = s.ws.live[ch].clip) : clipEpisode t s ch = s := by
  have notOpens : ¬ (isClipped s ch = true ∧ s.ws.live[ch].clip = false) := by simp [h]
  have notCloses : ¬ (isClipped s ch = false ∧ s.ws.live[ch].clip = true) := by simp [h]
  exact (if_neg notOpens).trans (if_neg notCloses)

end

/-- A clip flag is no part of a channel's values. -/
theorem sampleValue_putClip (ch k : Fin 8) (flag : Bool) (s : State) :
    sampleValue (putClip ch flag s) k = sampleValue s k := by
  have own (j : Fin 8) : ownValue s.bs j (putClip ch flag s).ws.live[j] = ownValue s.bs j s.ws.live[j] := by
    by_cases h : j = ch
    · subst h
      simp [putClip]
      rfl
    · have apart : ch.val ≠ j.val := fun e => h (Fin.ext e.symm)
      simp [putClip, Vector.getElem_set_ne, apart]
  unfold sampleValue
  simp only [putClip_bs, own]
  rfl

theorem sampleCodes_putClip (ch : Fin 8) (flag : Bool) (s : State) :
    sampleCodes (putClip ch flag s) = sampleCodes s := by
  unfold sampleCodes
  simp only [sampleValue_putClip]
  rfl

theorem sampleCodes_offerRun (t : Nat) (body : RecordBody) (s : State) :
    sampleCodes (offerRun t body s) = sampleCodes s := by
  unfold sampleCodes sampleValue
  simp only [offerRun_ws, offerRun_bs]

theorem sampleCodes_clipEpisodes (t : Nat) (s : State) : sampleCodes (clipEpisodes t s) = sampleCodes s := by
  refine foldl_keeps (fun u ch => ?_) _ s
  unfold clipEpisode
  dsimp only
  split
  · rw [sampleCodes_offerRun, sampleCodes_putClip]
  · split
    · rw [sampleCodes_offerRun, sampleCodes_putClip]
    · rfl

/-! ## The advance (R65, R76) -/

/-- The channel is a current channel whose pole is open. -/
def onOpenPole (s : State) (ch : Fin 8) : Prop := ∃ p, currentChannel p = ch ∧ poleOpen p s

theorem currentChannel_of_pole {ch : Fin 8} {p : Pole} (hc : isCurrent ch = true) (h : poleOf ch = some p) :
    currentChannel p = ch := by
  revert ch
  cases p <;> decide

theorem onOpenPole_iff (s : State) (ch : Fin 8) :
    onOpenPole s ch ↔ (isCurrent ch && channelOpen s.bs.poles ch) = true := by
  rw [Bool.and_eq_true]
  constructor
  · rintro ⟨p, rfl, opened⟩
    exact ⟨isCurrent_currentChannel p, (channelOpen_of_pole (poleOf_currentChannel p) s).2 opened⟩
  · rintro ⟨current, opened⟩
    cases hp : poleOf ch with
    | none => simp [channelOpen_of_none hp] at opened
    | some p => exact ⟨p, currentChannel_of_pole current hp, (channelOpen_of_pole hp s).1 opened⟩

/-- D decays on a current channel, its pole not open. -/
theorem dcDecays_iff (s : State) (ch : Fin 8) :
    (isCurrent ch && !channelOpen s.bs.poles ch) = true ↔ 4 ≤ ch.val ∧ ¬ onOpenPole s ch := by
  rw [onOpenPole_iff]
  simp only [isCurrent, Bool.and_eq_true, Bool.not_eq_true', decide_eq_true_eq]
  constructor
  · rintro ⟨current, shut⟩
    exact ⟨current, by simp [shut]⟩
  · rintro ⟨current, shut⟩
    exact ⟨current, by simpa [current] using shut⟩

theorem dropOpenDc_live (s : State) (ch : Fin 8) :
    (dropOpenDc s).ws.live[ch] =
      if (isCurrent ch && channelOpen s.bs.poles ch) = true then { s.ws.live[ch] with d := 0 } else s.ws.live[ch] := by
  simp only [dropOpenDc, Fin.getElem_fin, Vector.getElem_ofFn]

theorem advanceAll_live (s : State) (ch : Fin 8) :
    (advanceAll s).ws.live[ch] =
      advanceRecord s.ws.decay (channelOpen s.bs.poles ch) ch (sampleValue s ch) s.ws.live[ch] := by
  simp only [advanceAll, Fin.getElem_fin, Vector.getElem_ofFn]

theorem advanceRamp_eq (aFix step : Int) (target : Nat) :
    advanceRamp aFix step target =
      let next := aFix + step
      let goal : Int := (target : Int) * 65536
      let done := (0 < step ∧ goal ≤ next) ∨ (step < 0 ∧ next ≤ goal)
      (if done then goal else next, if done then 0 else step) := by
  unfold advanceRamp
  dsimp only
  split <;> rfl

theorem advanceRecord_cleared {opened : Bool} {ch : Fin 8} (h : (isCurrent ch && !opened) = false) (decay : Nat)
    (value : Int) (x : LiveRecord) :
    advanceRecord decay opened ch value x =
      let ramp := advanceRamp x.aFix x.rampStep x.rampTarget
      { x with theta := x.theta + x.dTheta, aFix := ramp.1, rampStep := ramp.2, d := 0, sPrev := value } := by
  have zero : truncDiv (0 * (decay : Int)) 65536 = 0 := by rw [zero_mul]; rfl
  unfold advanceRecord
  simp only [h, Bool.false_eq_true, if_false, zero]

theorem advanceRecord_decays {opened : Bool} {ch : Fin 8} (h : (isCurrent ch && !opened) = true) (decay : Nat)
    (value : Int) (x : LiveRecord) :
    advanceRecord decay opened ch value x =
      let ramp := advanceRamp x.aFix x.rampStep x.rampTarget
      { x with
        theta := x.theta + x.dTheta, aFix := ramp.1, rampStep := ramp.2
        d := Int.tdiv (x.d * decay) 65536, sPrev := value } := by
  unfold advanceRecord
  simp only [h, if_true]
  rw [truncDiv_nat]

theorem settle_al (s : State) : (settle s).al = s.al := by
  unfold settle arbitrate
  repeat' split
  all_goals rfl

/-! ## The codes and the frames of a sample of the run (R75, R80, R83) -/

theorem gridWork_codes (s : State) :
    (gridWork s).2.1 =
      sampleCodes (interruptPoles s.now (dropDcAtEntry (breakerExpiries s.now (beginSample s.now (takeGrid s))))) := by
  unfold gridWork computeSample
  dsimp only
  rw [computeWaves_eq]
  exact sampleCodes_clipEpisodes _ _

section
variable {s : State} (h : sampleHere s)
include h

theorem gridInstant_codes : (settle (gridInstant s)).ws.codes = (gridWork s).2.1 := by
  rw [settle_codes, gridInstant_sample h]
  dsimp only
  rw [(frameInstant_effect .i _ _).codes, (frameInstant_effect .v _ _).codes]
  rfl

/-- A group that loses no link is sent its frame, whatever becomes of the other. -/
theorem gridInstant_framed {g : Group} (hg : spared (s.al.get g)) :
    (settle (gridInstant s)).al.get g = (s.al.get g).framed g (gridWork s).2.1 := by
  let done := (judgeSampleEvents s.count (gridWork s).2.2 (gridWork s).1, (gridWork s).2.1)
  have handed : (handCodes done).al = s.al := by rw [handCodes_al, judgeSampleEvents_al, gridWork_al]
  rw [settle_al, gridInstant_sample h]
  cases g with
  | v =>
    have spared' : spared ((handCodes done).al.get .v) := by rwa [handed]
    refine ((frameInstant_effect .i _ _).other (by decide)).trans ?_
    rw [frameInstant_spared _ spared', putGroup_al, perGroup_get_put, handed]
  | i =>
    have kept : (frameInstant .v done.2 (handCodes done)).al.get .i = s.al.get .i := by
      rw [(frameInstant_effect .v _ _).other (by decide), handed]
    have spared' : spared ((frameInstant .v done.2 (handCodes done)).al.get .i) := by rwa [kept]
    dsimp only
    rw [frameInstant_spared _ spared', putGroup_al, perGroup_get_put, kept]

end

/-- Settles O42: the codes and their limits, the sine, the values, the advance, the clip episodes, and the codes and
frames of a sample of the run. -/
theorem codesStayWithinTheirLimits : Obligations.CodesStayWithinTheirLimits := by
  refine ⟨fun s ch => ?limits, fun a theta => ?sine, fun s => ?values, fun s ch => ?advance, fun t s ch => ?clip,
    fun s h => ?instant⟩
  case limits =>
    intro x y
    obtain ⟨bounds, inside, below, above⟩ := clampInt_spec (show -(x.limit : Int) ≤ x.limit by omega) y
    have code : (sampleCodes s)[ch] = clampInt (-(x.limit : Int)) x.limit y := sampleCodes_get s ch
    rw [code]
    exact ⟨bounds, inside, below, above, sineCode_bounds⟩
  case sine =>
    refine ⟨fun ha => sineCode_near a ha theta, sineCode_halfTurn a theta, sineCode_reflected a theta, ?_,
      sineCode_quarterTurn⟩
    rw [sineCode_lowHalf (by decide), sineMagnitude_zero rfl]
    rfl
  case values =>
    intro x ac full voltage current
    have voltage_eq (p : Pole) : voltage p = voltageChannel p := by cases p <;> rfl
    have current_eq (p : Pole) : current p = currentChannel p := by cases p <;> rfl
    have notResidual (ch : Fin 8) (hch : ch ≠ 7) : sampleValue s ch = ownValue s.bs ch s.ws.live[ch] :=
      sampleValue_own (isResidual_eq_false (.inl hch))
    have voltageOwn (p : Pole) := notResidual (voltageChannel p) (by cases p <;> decide)
    have currentOwn (p : Pole) := notResidual (currentChannel p) (by cases p <;> decide)
    have shut (ch : Fin 8) (hp : poleOf ch = none) : ownValue s.bs ch s.ws.live[ch] = (channelSum ch s.ws.live[ch]).1 :=
      ownValue_shut (by simp [channelOpen_of_none hp]) _
    refine ⟨?_, fun p opened => ?_, fun p closed => ?_, fun mode => ?_, fun mode => ?_⟩
    · rw [notResidual 3 (by decide), shut 3 rfl, channelSum_voltage rfl]
    · have openVoltage := (channelOpen_of_pole (poleOf_voltageChannel p) s).2 opened
      have openCurrent := (channelOpen_of_pole (poleOf_currentChannel p) s).2 opened
      rw [voltage_eq, current_eq, voltageOwn, currentOwn]
      refine ⟨ownValue_openCurrent openCurrent (isCurrent_currentChannel p) _, fun line => ?_, fun bus => ?_⟩
      · exact ownValue_openLine openVoltage (isCurrent_voltageChannel p) line _
      · rw [ownValue_openBus openVoltage (isCurrent_voltageChannel p) bus,
          channelSum_voltage (isCurrent_voltageChannel p)]
    · have shutVoltage := mt (channelOpen_of_pole (poleOf_voltageChannel p) s).1 closed
      have shutCurrent := mt (channelOpen_of_pole (poleOf_currentChannel p) s).1 closed
      rw [voltage_eq, current_eq, voltageOwn, currentOwn, ownValue_shut shutVoltage, ownValue_shut shutCurrent]
      exact ⟨channelSum_current (isCurrent_currentChannel p) _, channelSum_voltage (isCurrent_voltageChannel p) _⟩
    · rw [sampleValue_own (isResidual_eq_false (.inr mode)), shut 7 rfl]
      exact channelSum_current rfl _
    · rw [notResidual 4 (by decide), notResidual 5 (by decide), notResidual 6 (by decide)]
      exact if_pos (by rw [mode]; rfl)
  case advance =>
    intro x next goal done onOpen
    have opened : onOpen ↔ (isCurrent ch && channelOpen s.bs.poles ch) = true := onOpenPole_iff s ch
    rw [dropOpenDc_live, advanceAll_live]
    refine ⟨fun cleared => ⟨?_, fun ho => if_pos (opened.1 ho)⟩, fun ho hch => ?_,
      fun ho => if_neg (mt opened.2 ho), rfl⟩
    · have zero : (isCurrent ch && !channelOpen s.bs.poles ch) = false :=
        Bool.eq_false_iff.2 fun decays => by
          obtain ⟨current, shut⟩ := (dcDecays_iff s ch).1 decays
          exact cleared.elim shut (Nat.not_lt.2 current)
      rw [advanceRecord_cleared zero, advanceRamp_eq]
    · rw [advanceRecord_decays ((dcDecays_iff s ch).2 ⟨hch, ho⟩), advanceRamp_eq]
  case clip =>
    intro x l y outside sum clipped flag
    have raw : limitedCode s.ws.settings[ch] y ≠ y ↔ outside := limitedCode_ne_iff _ _
    have judged : isClipped s ch = true ↔ clipped := isClipped_iff.trans (or_congr raw (channelSum_limited ch _))
    refine ⟨fun hc hf => ?_, fun hc hf => ?_, fun stands => ?_, fun hf => if_pos hf,
      fun hf => if_neg (Bool.eq_false_iff.1 hf)⟩
    · have kept : (if limitedCode s.ws.settings[ch] y ≠ y then some y else none) = if outside then some y else none :=
        if_congr raw rfl rfl
      rw [← kept]
      exact clipEpisode_opens (judged.2 hc) hf
    · exact clipEpisode_closes (Bool.eq_false_iff.2 (mt judged.1 hc)) hf
    · refine clipEpisode_stands ?_
      obtain ⟨hc, hf⟩ | ⟨hc, hf⟩ := stands
      · exact (judged.2 hc).trans hf.symm
      · exact (Bool.eq_false_iff.2 (mt judged.1 hc)).trans hf.symm
  case instant =>
    intro s1 s2
    have codes : (gridWork s).2.1 = sampleCodes s2 := gridWork_codes s
    refine ⟨_, exec_gridInstant h.1 h.2.1, (gridInstant_codes h).trans codes, fun g hg => ?_⟩
    intro x
    have sent := gridInstant_framed h hg
    rw [codes] at sent
    refine ⟨fun unsent => sent.trans (if_neg ?_), fun live => sent.trans (if_pos live)⟩
    rintro (live | live) <;> obtain unsent | unsent := unsent <;> cases unsent.symm.trans live

end Sys2Proof.Machine

/-! # The decisions of a visit's items (R172 to R184) -/

namespace Sys2Proof.Machine

/-- One tally moves with each decision (R184). -/
def Assessment.decided (d : Decision) (visit : Visit) (a : Assessment) : Assessment :=
  { visit := some visit
    pass := if d = .pass then a.pass + 1 else a.pass
    nonPass := if d = .pass then a.nonPass else a.nonPass + 1 }

theorem tally_eq (d : Decision) (visit : Visit) (a : Assessment) :
    ({ a with visit := some visit } : Assessment).tally d = a.decided d visit := by
  cases d <;> rfl

/-- Item k of the visit, which is x, with its decision. -/
def Visit.decided (k : Nat) (x : ItemRun) (d : Decision) (measured : Option Int) (v : Visit) : Visit :=
  { v with items := v.items.set k { x with decision := some d, measured := measured } }

theorem decideItem_eq {s : State} {v : Visit} (hv : s.asmt.visit = some v) (k : Nat) (x : ItemRun) (d : Decision)
    (measured : Option Int) (head : Nat) :
    decideItem k x d measured head s =
      offerRun head (.assess v.state v.count k d measured)
        { s with asmt := s.asmt.decided d (v.decided k x d measured) } := by
  simp only [decideItem, hv, tally_eq, Visit.decided]

theorem decideItem_asmt {s : State} {v : Visit} (hv : s.asmt.visit = some v) (k : Nat) (x : ItemRun) (d : Decision)
    (measured : Option Int) (head : Nat) :
    (decideItem k x d measured head s).asmt =
      s.asmt.decided d (v.decided k x d measured) := by
  rw [decideItem_eq hv, offerRun_asmt]

/-! ## An event (R176 to R178) -/

/-- The decision that an event with this subject and measured time gives an item. -/
def ItemRun.judged (subject : Subject) (time : Int) (x : ItemRun) : Option Decision :=
  if x.decision = none ∧ x.item.subject = subject then eventDecision x.item time else none

/-- The item after the event. -/
def ItemRun.after (subject : Subject) (time : Int) (x : ItemRun) : ItemRun :=
  match x.judged subject time with
  | some d => { x with decision := some d, measured := some time }
  | none => x

/-- How many of the items an event decides in a way. -/
def decidedOf (subject : Subject) (time : Int) (way : Decision → Bool) (l : List ItemRun) : Nat :=
  (l.filter fun x => (x.judged subject time).any way).length

section
variable {subject : Subject} {time : Int} {x : ItemRun}

theorem eventDecision_eq (x : Item) (time : Int) :
    eventDecision x time =
      if x.kind = .expect then some (if time < x.lo then .early else if time ≤ x.hi then .pass else .late)
      else if (x.lo : Int) ≤ time ∧ time ≤ x.hi then some .fail else none := by
  unfold eventDecision
  cases x.kind with
  | expect => simp only [if_true, apply_ite some]
  | forbid => rfl

theorem judged_eq :
    x.judged subject time =
      if x.decision.isSome ∨ x.item.subject ≠ subject then none else eventDecision x.item time := by
  have swapped : (x.decision = none ∧ x.item.subject = subject) ↔ ¬ (x.decision.isSome ∨ x.item.subject ≠ subject) := by
    rw [not_or, not_not, Option.not_isSome_iff_eq_none]
  unfold ItemRun.judged
  rw [if_congr swapped rfl rfl, ite_not]

theorem after_judged {d : Decision} (h : x.judged subject time = some d) :
    x.after subject time = { x with decision := some d, measured := some time } := by
  simp only [ItemRun.after, h]

theorem after_unjudged (h : x.judged subject time = none) : x.after subject time = x := by
  simp only [ItemRun.after, h]

end

section
variable {subject : Subject} {te head k : Nat} {s : State} {v : Visit} {x : ItemRun}

theorem judgeItem_absent (hv : s.asmt.visit = some v) (h : v.items[k]? = none) :
    judgeItem subject te head s k = s := by
  simp only [judgeItem, hv, h]

theorem judgeItem_unjudged (hv : s.asmt.visit = some v) (hx : v.items[k]? = some x)
    (h : x.judged subject (te - v.entryTime) = none) : judgeItem subject te head s k = s := by
  unfold ItemRun.judged at h
  simp only [judgeItem, hv, hx]
  by_cases applies : x.decision = none ∧ x.item.subject = subject
  · rw [if_pos applies] at h ⊢
    rw [h]
  · exact if_neg applies

theorem judgeItem_judged {d : Decision} (hv : s.asmt.visit = some v) (hx : v.items[k]? = some x)
    (h : x.judged subject (te - v.entryTime) = some d) :
    judgeItem subject te head s k = decideItem k x d (some (te - v.entryTime)) head s := by
  unfold ItemRun.judged at h
  obtain ⟨applies, decision⟩ : _ ∧ _ := Option.ite_none_right_eq_some.1 h
  simp only [judgeItem, hv, hx, if_pos applies, decision]

theorem judgeItems_absent {l : List Nat} (hv : s.asmt.visit = some v) (h : ∀ k ∈ l, v.items.length ≤ k) :
    l.foldl (judgeItem subject te head) s = s := by
  induction l with
  | nil => rfl
  | cons k l ih =>
    rw [List.foldl_cons, judgeItem_absent hv (List.getElem?_eq_none (h k (by simp)))]
    exact ih fun j hj => h j (List.mem_cons_of_mem k hj)

end

theorem decidedOf_cons (subject : Subject) (time : Int) (way : Decision → Bool) (x : ItemRun) (l : List ItemRun) :
    decidedOf subject time way (x :: l) =
      (if (x.judged subject time).any way then 1 else 0) + decidedOf subject time way l := by
  unfold decidedOf
  rw [List.filter_cons]
  split
  · rw [List.length_cons, Nat.add_comm]
  · rw [Nat.zero_add]

theorem decidedOf_pass (subject : Subject) (time : Int) (l : List ItemRun) :
    decidedOf subject time (· == .pass) l = (l.filter fun x => x.judged subject time = some .pass).length := by
  have same (d : Option Decision) : d.any (· == .pass) = decide (d = some .pass) := by
    cases d <;> simp [beq_eq_decide]
  simp only [decidedOf, same]

theorem decidedOf_nonPass (subject : Subject) (time : Int) (l : List ItemRun) :
    decidedOf subject time (· != .pass) l =
      (l.filter fun x => (x.judged subject time).isSome && x.judged subject time ≠ some .pass).length := by
  have same (d : Option Decision) : d.any (· != .pass) = (d.isSome && d ≠ some .pass) := by
    cases d <;> simp [bne, beq_eq_decide]
  simp only [decidedOf, same]

/-- One item against an event: it alone changes, and one tally counts the decision. -/
theorem judgeItem_asmt {s : State} {v : Visit} {pre rest : List ItemRun} {x : ItemRun} (subject : Subject)
    (te head : Nat) (hv : s.asmt.visit = some { v with items := pre ++ x :: rest }) :
    let time : Int := te - v.entryTime
    (judgeItem subject te head s pre.length).asmt =
      { visit := some { v with items := pre ++ x.after subject time :: rest }
        pass := s.asmt.pass + if (x.judged subject time).any (· == .pass) then 1 else 0
        nonPass := s.asmt.nonPass + if (x.judged subject time).any (· != .pass) then 1 else 0 } := by
  intro time
  have hx : (pre ++ x :: rest)[pre.length]? = some x := by simp
  cases h : x.judged subject time with
  | none =>
    rw [judgeItem_unjudged hv hx h, after_unjudged h, ← hv]
    rfl
  | some d =>
    rw [judgeItem_judged hv hx h, decideItem_asmt hv, after_judged h]
    by_cases pass : d = .pass <;> simp [Assessment.decided, Visit.decided, pass, time]

/-- An event against the items of a visit, from one of them to the last. -/
theorem judgeItems_asmt (subject : Subject) (te head m : Nat) (rest pre : List ItemRun) (s : State) (v : Visit)
    (hv : s.asmt.visit = some { v with items := pre ++ rest }) :
    let time : Int := te - v.entryTime
    ((List.range' pre.length (rest.length + m)).foldl (judgeItem subject te head) s).asmt =
      { visit := some { v with items := pre ++ rest.map (ItemRun.after subject time) }
        pass := s.asmt.pass + decidedOf subject time (· == .pass) rest
        nonPass := s.asmt.nonPass + decidedOf subject time (· != .pass) rest } := by
  intro time
  induction rest generalizing pre s with
  | nil =>
    rw [judgeItems_absent hv (fun k hk => by simpa using (List.mem_range'_1.1 hk).1), List.map_nil, ← hv]
    rfl
  | cons x rest ih =>
    have judged := judgeItem_asmt subject te head hv
    have next : pre.length + 1 = (pre ++ [x.after subject time]).length := by simp
    have later := ih (pre ++ [x.after subject time]) (judgeItem subject te head s pre.length)
      (by rw [judged, List.append_assoc]; rfl)
    rw [List.length_cons, Nat.add_right_comm, List.range'_succ, List.foldl_cons, next, later, judged]
    simp only [decidedOf_cons, List.map_cons, List.append_assoc, List.singleton_append, Nat.add_assoc, time]

/-- R173, R178: an event against a visit of at most four items. -/
theorem assessEvent_asmt {s : State} {v : Visit} (subject : Subject) (te head : Nat) (hv : s.asmt.visit = some v)
    (four : v.items.length ≤ 4) :
    let time : Int := te - v.entryTime
    (assessEvent subject te head s).asmt =
      { visit := some { v with items := v.items.map (ItemRun.after subject time) }
        pass := s.asmt.pass + decidedOf subject time (· == .pass) v.items
        nonPass := s.asmt.nonPass + decidedOf subject time (· != .pass) v.items } := by
  have all := judgeItems_asmt subject te head (4 - v.items.length) v.items [] s v hv
  rw [Nat.add_sub_cancel' four] at all
  unfold assessEvent
  rw [List.range_eq_range']
  exact all

/-! ## The visit's end (R179, R180) -/

theorem endItem_eq {cut : Bool} {head k : Nat} {s : State} {v : Visit} {x : ItemRun} (hv : s.asmt.visit = some v)
    (hx : v.items[k]? = some x) (hd : x.decision = none) :
    endItem cut head s k = decideItem k x (endDecision cut x.item.kind) none head s := by
  simp only [endItem, hv, hx, hd, if_true]

theorem endDecision_eq (cut : Bool) (kind : ItemKind) :
    endDecision cut kind = if cut then .abandoned else if kind = .expect then .missing else .pass := by
  cases kind <;> rfl

/-! ## The increment of a frequency (R60) -/

/-- The quotient rounded to the nearest integer, a half up. -/
theorem roundNat_bounds (n : Nat) {d : Nat} (h : 0 < d) :
    2 * roundNat n d * d ≤ 2 * n + d ∧ 2 * n + d < 2 * (roundNat n d + 1) * d := by
  have below : roundNat n d * (2 * d) ≤ 2 * n + d := Nat.div_mul_le_self _ _
  have above : 2 * n + d < 2 * d * (roundNat n d + 1) := Nat.lt_mul_div_succ _ (by omega)
  constructor
  · calc 2 * roundNat n d * d = roundNat n d * (2 * d) := by ring
      _ ≤ _ := below
  · calc 2 * n + d < 2 * d * (roundNat n d + 1) := above
      _ = _ := by ring

theorem increment_toNat {f : Nat} {c : Int} (hf : f ≤ 1000000) (hc : -100000 ≤ c) :
    (increment f c).toNat = roundNat (f * 2 ^ 32 * 1000000000) (20000000 * rateBase c) := by
  have rate : 999900000 ≤ rateBase c := by
    unfold rateBase
    omega
  have small : roundNat (f * 2 ^ 32 * 1000000000) (20000000 * rateBase c) < 2 ^ 32 := by
    refine (Nat.div_lt_iff_lt_mul (by omega)).2 ?_
    omega
  unfold increment
  rw [BitVec.toNat_ofNat, Nat.mod_eq_of_lt small]

theorem increment_nearest {f : Nat} {c : Int} (hf : f ≤ 1000000) (hc : -100000 ≤ c) :
    let n : Int := (increment f c).toNat
    let num : Int := f * 2 ^ 32 * 1000000000
    let den : Int := 20000000 * (1000000000 + c)
    2 * n * den ≤ 2 * num + den ∧ 2 * num + den < 2 * (n + 1) * den := by
  intro n num den
  have base : (rateBase c : Int) = 1000000000 + c := Int.toNat_of_nonneg (by omega)
  obtain ⟨below, above⟩ := roundNat_bounds (f * 2 ^ 32 * 1000000000) (d := 20000000 * rateBase c) (by
    unfold rateBase
    omega)
  rw [← increment_toNat hf hc] at below above
  have divisor : den = ((20000000 * rateBase c : Nat) : Int) := by
    push_cast
    rw [base]
  have dividend : num = ((f * 2 ^ 32 * 1000000000 : Nat) : Int) := by push_cast; rfl
  rw [divisor, dividend]
  zify at below above
  exact ⟨below, above⟩

end Sys2Proof.Machine

/-! # State entry (R60 to R66, R126, R154, R155) -/

namespace Sys2Proof.Machine

/-- The state of the visit under way, which an entry leaves (R155). -/
def State.leftState (s : State) : Option (Fin 24) := if s.asmt.visit.isSome then s.sq.current else none

section
variable {n : Fin 24} {t : Nat} {e : Entry} {s : State} (he : s.st.entries[n] = some e)
include he

/-- An entry is the end of the visit before it, the loading, the record and the new visit. -/
theorem enterState_eq :
    let loaded := loadState n e (endVisit false t s)
    enterState n t s = setGuard e t (openVisit n loaded.sq.visits[n] t e.items
      (offerRun t (stateEntryBody n loaded.sq.visits[n] t s.leftState s.sq.taken)
        loaded)) := by
  unfold enterState
  split
  · next h => cases he.symm.trans h
  · next e' h =>
    cases he.symm.trans h
    rfl

theorem enterState_ws : (enterState n t s).ws = (loadEntry e s).ws := by
  rw [enterState_eq he]
  simp [loadState, loadEntry, State.cRun]

theorem enterState_bo : (enterState n t s).bo = (loadPattern e.pattern s).bo := by
  rw [enterState_eq he]
  simp [loadState, loadPattern, refreshOutputs]

theorem enterState_asmt :
    (enterState n t s).asmt = { (endVisit false t s).asmt with
      visit := some ⟨n, min 65535 (s.sq.visits[n] + 1), t, e.items.map fun x => ⟨x, none, none⟩⟩ } := by
  rw [enterState_eq he]
  simp [loadState, openVisit, countVisit, loadCounters, decrementBy]

theorem enterState_sq :
    (enterState n t s).sq = { s.sq with
      state := .running, current := some n, taken := none
      counters := .ofFn fun c =>
        if s.st.sources[c] = .entry n then (e.loads[c]).getD s.sq.counters[c] - 1
        else (e.loads[c]).getD s.sq.counters[c]
      visits := s.sq.visits.set n (min 65535 (s.sq.visits[n] + 1)), visited := s.sq.visited + 1
      guard := if 0 < e.guard then some ⟨t + e.guard, none⟩ else none, entrySample := true } := by
  rw [enterState_eq he]
  simp [loadState, setGuard, countVisit, loadCounters, decrementBy]

theorem enterState_rs :
    (enterState n t s).rs = (offer s.sq.runNumber t
      (stateEntryBody n (min 65535 (s.sq.visits[n] + 1)) t s.leftState s.sq.taken)
      (loadState n e (endVisit false t s))).rs := by
  rw [enterState_eq he]
  simp [loadState, offerRun, countVisit, loadCounters, decrementBy]

end

/-- Besides its records the operation changes the waves, the outputs, the sequencer and the assessment unit alone. -/
def Entered (s t : State) : Prop := t.bare = { s.bare with ws := t.ws, bo := t.bo, sq := t.sq, asmt := t.asmt }

theorem Entered.trans {s t u : State} (h : Entered s t) (k : Entered t u) : Entered s u := by
  unfold Entered at *
  rw [k, h]

theorem Assessed.entered {s t : State} (h : Assessed s t) : Entered s t := by
  unfold Entered
  rw [h.ws, h.bo, h.sq]
  exact h

theorem offerRun_entered (time : Nat) (body : RecordBody) (s : State) : Entered s (offerRun time body s) := by
  unfold Entered
  rw [offerRun_bare, offerRun_ws, offerRun_bo, offerRun_sq, offerRun_asmt]
  rfl

theorem enterState_entered (n : Fin 24) (t : Nat) (s : State) : Entered s (enterState n t s) := by
  cases he : s.st.entries[n] with
  | none =>
    rw [enterState_empty he]
    rfl
  | some e =>
    have loads (u : State) : Entered u (loadState n e u) := rfl
    have opens (visit : Nat) (u : State) : Entered u (setGuard e t (openVisit n visit t e.items u)) := rfl
    rw [enterState_eq he]
    exact ((endVisit_assessed false t s).entered.trans (loads _)).trans ((offerRun_entered t _ _).trans (opens _ _))

section
variable {s t : State} (h : Entered s t)
include h

theorem Entered.blocks : t.bs = s.bs ∧ t.al = s.al ∧ t.tb = s.tb ∧ t.st = s.st ∧ t.ci = s.ci := by
  have bs := bs_of_bare h
  have al := al_of_bare h
  have tb := tb_of_bare h
  have st := st_of_bare h
  have ci := ci_of_bare h
  exact ⟨bs, al, tb, st, ci⟩

/-- The control link takes a notice at most. -/
theorem Entered.cl : t.cl = { s.cl with notice := t.cl.notice } := by
  have quiet : { t.cl with notice := none } = { s.cl with notice := none } := congrArg State.cl h
  exact congrArg (fun x : ControlLink => { x with notice := t.cl.notice }) quiet

theorem Entered.rest :
    t.count = s.count ∧ t.resetLine = s.resetLine ∧ t.contactLines = s.contactLines ∧ t.syncLine = s.syncLine ∧
      t.free = s.free ∧ t.pending = s.pending := by
  have count := congrArg State.count h
  have resetLine := congrArg State.resetLine h
  have contactLines := congrArg State.contactLines h
  have syncLine := congrArg State.syncLine h
  have free := congrArg State.free h
  have pending := congrArg State.pending h
  exact ⟨count, resetLine, contactLines, syncLine, free, pending⟩

end

/-! ## The live record of a channel (R62 to R66) -/

theorem loadRamp_eq (amplitude target rampTime : Nat) :
    let steps := 20 * rampTime
    let quotient := roundDiv (((target : Int) - amplitude) * 65536) steps
    (steps = 0 ∨ target = amplitude → loadRamp amplitude target rampTime = (0, amplitude)) ∧
      (steps ≠ 0 → target ≠ amplitude →
        loadRamp amplitude target rampTime =
          (if quotient ≠ 0 then quotient else if amplitude < target then 1 else -1, target)) := by
  intro steps quotient
  refine ⟨fun still => if_pos still, fun moves apart => (if_neg (not_or.2 ⟨moves, apart⟩)).trans ?_⟩
  have rises : (0 : Int) < (target : Int) - amplitude ↔ amplitude < target := by omega
  by_cases zero : quotient = 0
  · rw [if_neg (not_not.2 zero), ← if_congr rises rfl rfl]
    exact if_pos zero
  · rw [if_pos zero]
    exact if_neg zero

theorem loadPhase_eq (r : Word) (p : ChannelPart) (kept : Word) :
    loadPhase r p kept =
      if p.phaseMode = .keep then kept else if p.frequency = 0 then anglePhase p.angle else r + anglePhase p.angle := by
  cases h : p.phaseMode <;> simp [loadPhase, h]

theorem loadDc_eq (ch : Fin 8) (p : ChannelPart) (ac0 sPrev kept : Int) :
    loadDc ch p ac0 sPrev kept =
      if ch.val < 4 ∨ p.dcMode = .noDc then 0 else if p.dcMode = .holdDc then kept else (sPrev - ac0) * 65536 := by
  by_cases voltage : ch.val < 4
  · simp [loadDc, isCurrent_eq_false.2 voltage, voltage]
  · have current : isCurrent ch = true := Bool.not_eq_false _ ▸ mt isCurrent_eq_false.1 voltage
    cases h : p.dcMode <;> simp [loadDc, current, h, voltage]

section
variable {ieMode : IeMode} {ch : Fin 8}

theorem loadRecord_own (h : ch ≠ 7 ∨ ieMode = .independent) (cRun : Int) (r : Word) (p : ChannelPart) (x : LiveRecord) :
    loadRecord ieMode cRun r ch p x =
      let theta := loadPhase r p x.theta
      let ramp := loadRamp p.amplitude p.rampTarget p.rampTime
      { theta := theta, dTheta := increment p.frequency cRun, aFix := (p.amplitude : Int) * 65536
        rampStep := ramp.1, rampTarget := ramp.2
        d := loadDc ch p (sineCode p.amplitude theta) x.sPrev x.d, sPrev := x.sPrev, clip := x.clip } :=
  if_neg (Bool.eq_false_iff.1 (isResidual_eq_false h))

theorem loadRecord_ofResidual (hc : ch = 7) (h : ieMode = .residual) (cRun : Int) (r : Word) (p : ChannelPart)
    (x : LiveRecord) :
    loadRecord ieMode cRun r ch p x = { LiveRecord.cleared with sPrev := x.sPrev, clip := x.clip } := by
  subst hc h
  rfl

theorem loadRecord_kept (cRun : Int) (r : Word) (p : ChannelPart) (x : LiveRecord) :
    (loadRecord ieMode cRun r ch p x).sPrev = x.sPrev ∧ (loadRecord ieMode cRun r ch p x).clip = x.clip := by
  unfold loadRecord
  split <;> exact ⟨rfl, rfl⟩

end

/-- Settles O54: the entry, block by block and channel by channel; the increment; the items on an event and at the
visit's end. -/
theorem stateEntrySetsTheVisit : Obligations.StateEntrySetsTheVisit := by
  refine ⟨fun n time e s he => ?entry, fun f c hf hc _ => increment_nearest hf hc,
    fun subject te head v s hv four => ?event, fun cut head s four => ?ending⟩
  case entry =>
    intro t loaded visit fromState ended record
    have ws : t.ws = (loadEntry e s).ws := enterState_ws he
    have bo : t.bo = (loadPattern e.pattern s).bo := enterState_bo he
    have asmt : t.asmt = { ended.asmt with
        visit := some ⟨n, visit, time, e.items.map fun x => ⟨x, none, none⟩⟩ } := enterState_asmt he
    have sq : t.sq = _ := enterState_sq he
    have entered : Entered s t := enterState_entered n time s
    obtain ⟨bs, al, tb, st, ci⟩ := entered.blocks
    have body : stateEntryBody n visit time fromState s.sq.taken = record := by
      simp only [stateEntryBody, record, ne_eq, ite_not]
    have rs : t.rs = (offer s.sq.runNumber time record (loadState n e ended)).rs := by
      rw [← body]
      exact enterState_rs he
    have counters (c : Fin 4) : t.sq.counters[c] = if s.st.sources[c] = .entry n then loaded c - 1 else loaded c :=
      enterState_counters he c
    have records : t.rs.records = (ended.rs.offer s.sq.runNumber time record).records := by
      rw [rs, offer_records, loadState_rs]
    have nextSeq : t.rs.nextSeq = (ended.rs.offer s.sq.runNumber time record).nextSeq := by
      rw [rs, offer_nextNumber, loadState_rs]
    have window : t.rs.window = (ended.rs.offer s.sq.runNumber time record).window := by
      rw [rs, (offer_store _ _ _ _).2, loadState_rs]
    clear_value t ended
    have pattern : t.bo = { s.bo with pattern := e.pattern, outputs := t.bo.outputs } := by rw [bo]; rfl
    have waves : t.ws = { s.ws with live := t.ws.live, decay := e.decay } := by rw [ws]; rfl
    have sequencer : t.sq = { s.sq with
        state := .running, current := some n, taken := none, counters := t.sq.counters, visits := t.sq.visits
        visited := s.sq.visited + 1, guard := t.sq.guard, entrySample := true } := by rw [sq]
    refine ⟨by rw [sq], by rw [sq], by rw [sq], counters, by simp [sq, visit], fun m hm => ?_, by rw [sq],
      by rw [sq], by rw [sq], by rw [sq], by rw [sq], by rw [asmt], by rw [asmt], by rw [asmt], records, nextSeq,
      window, by rw [pattern], by rw [waves], by rw [waves],
      ⟨bs, al, tb, st, ci, entered.cl, waves, pattern, sequencer, entered.rest⟩, fun k => ?_, fun ch => ?_⟩
    · have apart : n.val ≠ m.val := fun same => hm (Fin.ext same.symm)
      rw [sq]
      simp [Vector.getElem_set_ne, apart]
    · rw [bo]
      simp [loadPattern, refreshOutputs]
    · intro p old x angle steps quotient
      have loaded : x = loadRecord s.ws.ieMode s.cRun s.ws.r ch p old := by
        simp only [x, ws, loadEntry, Fin.getElem_fin, Vector.getElem_ofFn, p, old]
      obtain ⟨sPrev, clip⟩ := loadRecord_kept (ieMode := s.ws.ieMode) (ch := ch) s.cRun s.ws.r p old
      rw [loaded]
      refine ⟨sPrev, clip, fun hc mode => loadRecord_ofResidual hc mode _ _ _ _, fun own => ?_⟩
      obtain ⟨still, moves⟩ := loadRamp_eq p.amplitude p.rampTarget p.rampTime
      rw [loadRecord_own own]
      refine ⟨rfl, loadPhase_eq _ _ _, rfl, fun h => ?_, fun h apart => ?_, loadDc_eq _ _ _ _ _⟩
      · dsimp only
        rw [still h]
        exact ⟨rfl, rfl⟩
      · dsimp only
        rw [moves h apart]
        exact ⟨rfl, rfl⟩
  case event =>
    intro time decided t
    have judged : decided = ItemRun.judged subject time := by
      funext x
      rw [judged_eq, eventDecision_eq]
    have asmt := assessEvent_asmt subject te head hv four
    clear_value decided
    subst judged
    refine ⟨by rw [asmt]; rfl, by rw [asmt, decidedOf_pass], by rw [asmt, decidedOf_nonPass], rfl,
      fun k x hx => ⟨judgeItem_unjudged hv hx, fun d decision => ?_⟩⟩
    rw [judgeItem_judged hv hx decision, decideItem_eq hv]
    rfl
  case ending =>
    intro t u
    obtain ⟨pass, nonPass⟩ := endVisit_tally cut head s four
    refine ⟨rfl, pass, nonPass, fun v k x hv hx => ?_⟩
    intro d
    refine ⟨fun decided => ?_, fun undecided => ?_⟩
    · exact endItem_decided hv hx (Option.isSome_iff_ne_none.1 decided)
    · rw [endItem_eq hv hx undecided, endDecision_eq, decideItem_eq hv]
      rfl

end Sys2Proof.Machine

/-! # AMPON and AMPOFF (R84, R86, R206) -/

namespace Sys2Proof.Machine

/-- R84: AMPON begins to settle a group in OFF, whose first frame then carries 0. -/
theorem AmpGroup.turnOn_off {x : AmpGroup} (h : x.state = .off) :
    x.turnOn = { x.clearCounts with state := .settling, frameNumber := 255 } := by
  unfold AmpGroup.turnOn
  rw [h]

/-- R206: outside OFF a partial acknowledgment is dropped (log 20). -/
theorem AmpGroup.turnOn_on {x : AmpGroup} (h : x.state ≠ .off) : x.turnOn = { x with receiver := [] } := by
  unfold AmpGroup.turnOn
  cases e : x.state with
  | off => exact absurd e h
  | settling | ready | fault => rfl

theorem groupOfCode_some {n : Nat} {g : Group} (h : groupOfCode n = some g) : n = groupCode g := by
  unfold groupOfCode at h
  split at h <;> cases h <;> rfl

theorem byteOf_groupCode {group : Byte} {g : Group} (h : groupOfCode group.toNat = some g) :
    byteOf (groupCode g) = [group] := by
  rw [← groupOfCode_some h, byteOf, BitVec.ofNat_toNat, BitVec.setWidth_eq]

theorem groupReadback_putGroup {group : Byte} {g : Group} (h : groupOfCode group.toNat = some g) (x : AmpGroup)
    (s : State) : groupReadback g (putGroup g x s) = [group, BitVec.ofNat 8 x.state.code] := by
  unfold groupReadback
  rw [byteOf_groupCode h, putGroup_al, perGroup_get_put]
  rfl

section
variable {group : Byte}

theorem requestAmpon_range (h : 1 < group.toNat) (s : State) : requestAmpon group s = refuse .range s := by
  unfold requestAmpon
  rw [groupOfCode_none h]

theorem requestAmpoff_range (h : 1 < group.toNat) (s : State) : requestAmpoff group s = refuse .range s := by
  unfold requestAmpoff
  rw [groupOfCode_none h]

variable {g : Group} (hg : groupOfCode group.toNat = some g)
include hg

theorem requestAmpon_group (s : State) :
    requestAmpon group s =
      carried .ok [group, BitVec.ofNat 8 (s.al.get g).turnOn.state.code] (putGroup g (s.al.get g).turnOn s) := by
  unfold requestAmpon
  rw [hg]
  dsimp only
  rw [groupReadback_putGroup hg]

theorem requestAmpoff_group (s : State) :
    requestAmpoff group s =
      if s.sq.state ≠ .idle then refuse .busy s
      else carried .ok [group, 0] (putGroup g (s.al.get g).turnOff s) := by
  unfold requestAmpoff
  rw [hg]
  dsimp only
  rw [groupReadback_putGroup hg]
  rfl

/-- AMPON that leaves the group at `x`. -/
theorem exec_ampon {tag : Byte} {s : State} {x : AmpGroup} (l : listening s) (hx : (s.al.get g).turnOn = x) :
    exec (.ampon tag group) s =
      .next (answering ⟨tag, .ampon group⟩ .ok [group, BitVec.ofNat 8 x.state.code] (putGroup g x s)) := by
  subst hx
  rw [exec_requestOf rfl]
  exact act_answer l (fun y => requestAmpon_group hg (putCl y s)) rfl

end

/-- Settles O13: the refusals of both requests, and the group that each leaves. -/
theorem amponAndAmpoffSetTheGroup : Obligations.AmponAndAmpoffSetTheGroup := by
  intro tag group s listens on off
  refine ⟨fun beyond => ⟨?_, ?_⟩, fun g hg => ?_⟩
  · rw [exec_requestOf rfl]
    exact act_refuse listens fun y => requestAmpon_range beyond (putCl y s)
  · rw [exec_requestOf rfl]
    exact act_refuse listens fun y => requestAmpoff_range beyond (putCl y s)
  intro x cleared
  refine ⟨fun ho => ?settles, fun ho => ?stays, fun hs => ?busy, fun hs => ?turnedOff⟩
  case settles => exact exec_ampon hg listens (AmpGroup.turnOn_off ho)
  case stays => exact exec_ampon hg listens (AmpGroup.turnOn_on ho)
  case busy =>
    rw [exec_requestOf rfl]
    exact act_refuse listens fun y => (requestAmpoff_group hg (putCl y s)).trans (if_pos hs)
  case turnedOff =>
    rw [exec_requestOf rfl]
    exact act_answer listens (fun y => (requestAmpoff_group hg (putCl y s)).trans (if_neg (not_not_intro hs))) rfl

end Sys2Proof.Machine

/-! # The acknowledgment receiver (R206) -/

namespace Sys2Proof.Machine

section
variable {g : Group} {b : Byte} {s : State}

theorem receiveAckByte_outside (h : (s.al.get g).receiver = []) :
    receiveAckByte g b s = if b = 0x5A then putGroup g { s.al.get g with receiver := [b] } s else s := by
  unfold receiveAckByte
  simp only [h]
  rfl

theorem receiveAckByte_within (one : 1 ≤ (s.al.get g).receiver.length) (three : (s.al.get g).receiver.length ≤ 3) :
    receiveAckByte g b s = putGroup g { s.al.get g with receiver := (s.al.get g).receiver ++ [b] } s := by
  unfold receiveAckByte
  dsimp only
  split
  · next h => simp [h] at one
  · next h => simp [h] at three
  · rfl

theorem receiveAckByte_fifth {lead number flags low : Byte} (h : (s.al.get g).receiver = [lead, number, flags, low]) :
    receiveAckByte g b s =
      acknowledge g number flags (BitVec.ofNat 16 (low.toNat + 256 * b.toNat))
        (putGroup g { s.al.get g with receiver := [] } s) := by
  unfold receiveAckByte
  simp only [h]
  rfl

theorem exec_acknowledgmentByte (hr : s.resetLine = false) :
    exec (.acknowledgmentByte g b) s = .next (settle (receiveAckByte g b s)) := act_released hr

theorem exec_acknowledgment {number flags : Byte} {check : Half} (hr : s.resetLine = false) :
    exec (.acknowledgment g number flags check) s = .next (settle (acknowledge g number flags check s)) :=
  act_released hr

end

/-- Settles O46: a byte outside an acknowledgment, within one, and the fifth. -/
theorem acknowledgmentBytesMakeAnAcknowledgment : Obligations.AcknowledgmentBytesMakeAnAcknowledgment := by
  intro g b s hr x
  rw [exec_acknowledgmentByte hr]
  refine ⟨fun outside other => ?ignored, fun outside lead => ?begun, fun got held one three => ?taken,
    fun lead number flags low held => ?completed⟩
  case ignored => rw [receiveAckByte_outside outside, if_neg other]
  case begun => rw [receiveAckByte_outside outside, if_pos lead, lead]
  case taken =>
    subst held
    rw [receiveAckByte_within one three]
  case completed =>
    rw [receiveAckByte_fifth held, exec_acknowledgment (s := putGroup g { x with receiver := [] } s) hr]

end Sys2Proof.Machine

/-! # The entry to FAULT and the sequencer's answer (R83, R87, R91, R165) -/

namespace Sys2Proof.Machine

theorem runEnd_lastOutcome (o : RunOutcome) (s : State) : (runEnd o s).sq.lastOutcome = some o := by
  obtain ⟨_, _, _, h⟩ := runEnd_sq o s
  rw [h]

theorem snapshot_group (g : Group) (s : State) : s.snapshot.groups.get g = (s.al.get g).state := by
  cases g <;> rfl

/-! ## A group that has left READY (R165) -/

theorem groupLeftReady_run {s : State} (h : s.inRun = true) : groupLeftReady s = runEnd .ampFault s := by
  obtain ⟨-, e⟩ | ⟨out, -⟩ := groupLeftReady_cases s
  · exact e
  · rw [h] at out
    cases out

theorem groupLeftReady_wait {s : State} (h : s.sq.state = .armed ∨ s.sq.state = .gap) :
    groupLeftReady s = waitEnded s := by
  unfold groupLeftReady
  obtain h | h := h <;> rw [h] <;> rfl

theorem groupLeftReady_of_idle {s : State} (h : s.sq.state = .idle) : groupLeftReady s = s := by
  unfold groupLeftReady
  rw [h]

theorem groupLeftReady_idle (s : State) : (groupLeftReady s).sq.state = .idle := by
  cases h : s.sq.state with
  | idle => rwa [groupLeftReady_of_idle h]
  | armed => rw [groupLeftReady_wait (.inl h)]; rfl
  | running => rw [groupLeftReady_run (inRun_of_running h)]; exact runEnd_idle (by decide) s
  | pointing => rw [groupLeftReady_run (inRun_of_pointing h)]; exact runEnd_idle (by decide) s
  | gap => rw [groupLeftReady_wait (.inr h)]; rfl

theorem groupLeftReady_al (s : State) : (groupLeftReady s).al = s.al := by
  obtain ⟨-, e⟩ | ⟨-, e | e⟩ := groupLeftReady_cases s <;> rw [e]
  · exact runEnd_al .ampFault s
  · rfl

/-! ## The entry to FAULT (R87, R91) -/

/-- R91: the head of a record of the amplifier link shows the run's number and time, or 0 and 0. -/
theorem offerAt_putGroup (body : RecordBody) (g : Group) (x : AmpGroup) (s : State) :
    offerAt s.count body (putGroup g x s) =
      if s.inRun then offer s.sq.runNumber s.now body (putGroup g x s) else offer 0 0 body (putGroup g x s) := rfl

/-- The group in FAULT, with its AMP record and its AMP_FAULT notice, before the sequencer's answer. -/
def faultTold (g : Group) (cause : AmpEvent) (s : State) : State :=
  raiseNotice .ampFault
    (offerAt s.count (.amp g cause none) (putGroup g { s.al.get g with state := .fault, outstanding := none } s))

section
variable (g : Group) (cause : AmpEvent) (s : State)

theorem enterFault_eq :
    enterFault g cause s =
      if (s.al.get g).state = .ready then groupLeftReady (faultTold g cause s) else faultTold g cause s := rfl

theorem faultTold_al :
    (faultTold g cause s).al = s.al.put g { s.al.get g with state := .fault, outstanding := none } := by
  simp [faultTold]

theorem faultTold_sq : (faultTold g cause s).sq = s.sq := by simp [faultTold]

theorem enterFault_al :
    (enterFault g cause s).al = s.al.put g { s.al.get g with state := .fault, outstanding := none } := by
  rw [enterFault_eq]
  split
  · rw [groupLeftReady_al, faultTold_al]
  · exact faultTold_al g cause s

end

section
variable {g : Group} {cause : AmpEvent} {s : State} (ready : (s.al.get g).state = .ready)
include ready

theorem enterFault_ready : enterFault g cause s = groupLeftReady (faultTold g cause s) := if_pos ready

theorem enterFault_idle : (enterFault g cause s).sq.state = .idle := by
  rw [enterFault_ready ready]
  exact groupLeftReady_idle _

theorem enterFault_lastOutcome (run : s.inRun = true) :
    (enterFault g cause s).sq.lastOutcome = some .ampFault := by
  have still : (faultTold g cause s).inRun = true := by rwa [State.inRun, faultTold_sq]
  rw [enterFault_ready ready, groupLeftReady_run still]
  exact runEnd_lastOutcome .ampFault _

end

/-- What the end of a step that enters FAULT from a group value `x` shows: the group, and from READY no run. -/
theorem settle_enterFault (g : Group) (cause : AmpEvent) (x : AmpGroup) (s : State) :
    let t := settle (enterFault g cause (putGroup g x s))
    t.al.get g = { x with state := .fault, outstanding := none } ∧
      (x.state = .ready → t.inRun = false ∧ t.sq.state = .idle) ∧
      (x.state = .ready → s.inRun = true → t.sq.lastOutcome = some .ampFault) := by
  intro t
  have group : (putGroup g x s).al.get g = x := by rw [putGroup_al, perGroup_get_put]
  have sequencer : t.sq = (enterFault g cause (putGroup g x s)).sq := (settle_parts _).1
  have before (ready : x.state = .ready) : ((putGroup g x s).al.get g).state = .ready := by rwa [group]
  refine ⟨?_, fun ready => ?_, fun ready run => ?_⟩
  · rw [settle_al, enterFault_al, perGroup_get_put, group]
  · have idle : t.sq.state = .idle := by rw [sequencer, enterFault_idle (before ready)]
    exact ⟨notRun_of_idle idle, idle⟩
  · rw [sequencer]
    exact enterFault_lastOutcome (before ready) run

end Sys2Proof.Machine

/-! # A lost link (R80, R83, R87, R165) -/

namespace Sys2Proof.Machine

theorem settleMissed_below {g : Group} {s : State} (h : (s.al.get g).isSent = true)
    (ho : (s.al.get g).outstanding.isSome = true) (below : (s.al.get g).missed < 3) :
    settleMissed g s =
      putGroup g { s.al.get g with missed := (s.al.get g).missed + 1, acked := 0, outstanding := none } s :=
  (settleMissed_missed h ho).trans (if_neg (by omega))

theorem settleMissed_lost {g : Group} {s : State} (h : (s.al.get g).isSent = true)
    (ho : (s.al.get g).outstanding.isSome = true) (fourth : 3 ≤ (s.al.get g).missed) :
    settleMissed g s =
      enterFault g .linkLost
        (putGroup g { s.al.get g with missed := (s.al.get g).missed + 1, acked := 0, outstanding := none } s) :=
  (settleMissed_missed h ho).trans (if_pos (by omega))

/-- Settles O45: the loss of the link, a frame instant's two parts, and a group that leaves READY. -/
theorem fourthMissLosesTheLink : Obligations.FourthMissLosesTheLink := by
  refine ⟨fun g s hr grid => ?lost, fun g codes s => ?instant,
    fun s => ⟨fun h => ?run, groupLeftReady_wait, groupLeftReady_of_idle⟩⟩
  case lost =>
    intro x sent outstanding three
    have due := (linkLossDue_iff g s).2 ⟨grid, sent, outstanding, three⟩
    obtain ⟨group, idle, outcome⟩ := settle_enterFault g .linkLost
      { x with missed := x.missed + 1, acked := 0, outstanding := none } s
    have lost := settleMissed_lost ((isSent_iff x).2 sent) outstanding (Nat.le_of_eq three.symm)
    refine ⟨_, exec_due hr rfl due, ?_⟩
    rw [lost]
    rw [three] at group idle outcome ⊢
    exact ⟨rfl, by rw [group], by rw [group], by rw [group], by rw [group], by rw [group], idle, outcome⟩
  case instant =>
    intro x missed
    have unsent (h : x.state ≠ .settling) (h' : x.state ≠ .ready) : x.isSent ≠ true := fun e =>
      ((isSent_iff x).1 e).elim h h'
    refine ⟨rfl, fun h h' => sendFrame_unsent codes (unsent h h'), fun h => sendFrame_sent codes ((isSent_iff x).2 h),
      ?_, fun h ho => ⟨settleMissed_below ((isSent_iff x).2 h) ho, settleMissed_lost ((isSent_iff x).2 h) ho⟩⟩
    rintro (⟨h, h'⟩ | answered)
    · exact settleMissed_unsent (unsent h h')
    · exact settleMissed_answered answered
  case run => exact groupLeftReady_run (h.elim inRun_of_running inRun_of_pointing)

end Sys2Proof.Machine

/-! # Overload flags, channel by channel (R88, R89; log 26) -/

namespace Sys2Proof.Machine

/-! ## A flag on its group -/

/-- The group after a channel's flag: the run counts up to 20 or is cleared, the episode opens, stays or closes. -/
def AmpGroup.flagged (flags : Byte) (x : AmpGroup) (k : Fin 4) : AmpGroup :=
  { x with
    overRun := x.overRun.set k (if flags.getLsbD k.val then min 20 (x.overRun[k] + 1) else 0)
    episode := x.episode.set k (flags.getLsbD k.val && (x.episode[k] || decide (19 ≤ x.overRun[k]))) }

/-- The group after the four flags of an acknowledgment. -/
def AmpGroup.allFlagged (flags : Byte) (x : AmpGroup) : AmpGroup :=
  { x with
    overRun := .ofFn fun k => if flags.getLsbD k.val then min 20 (x.overRun[k] + 1) else 0
    episode := .ofFn fun k => flags.getLsbD k.val && (x.episode[k] || decide (19 ≤ x.overRun[k])) }

/-- R88: the channel's flag raises the overload event. -/
def AmpGroup.raises (flags : Byte) (x : AmpGroup) (k : Fin 4) : Prop :=
  flags.getLsbD k.val = true ∧ 19 ≤ x.overRun[k] ∧ x.episode[k] = false

theorem countOverload_kept (flag : Bool) (run : Nat) (episode : Bool) :
    (countOverload flag run episode).1 = (if flag then min 20 (run + 1) else 0) ∧
      (countOverload flag run episode).2.1 = (flag && (episode || decide (19 ≤ run))) := by
  unfold countOverload
  cases flag with
  | false => exact ⟨rfl, rfl⟩
  | true =>
    have twenty : min 20 (run + 1) = 20 ↔ 19 ≤ run := by omega
    cases episode <;> by_cases h : 19 ≤ run <;> simp [twenty, h]

theorem quiet_episode {flag : Bool} {run : Nat} {episode : Bool} (h : flag = true → run < 19 ∨ episode = true) :
    (flag && (episode || decide (19 ≤ run))) = (flag && episode) := by
  cases flag with
  | false => rfl
  | true =>
    obtain early | opened := h rfl
    · simp [Nat.not_le.2 early]
    · simp [opened]

section
variable (flags : Byte) (x : AmpGroup) {j k : Fin 4}

theorem AmpGroup.flagged_raises_ne (h : j ≠ k) : (x.flagged flags j).raises flags k ↔ x.raises flags k := by
  have apart : j.val ≠ k.val := fun e => h (Fin.ext e)
  simp [AmpGroup.raises, AmpGroup.flagged, Vector.getElem_set_ne, apart]

theorem AmpGroup.foldl_flagged : (List.finRange 4).foldl (AmpGroup.flagged flags) x = x.allFlagged flags := by
  have four : List.finRange 4 = [0, 1, 2, 3] := rfl
  rw [four]
  simp only [List.foldl_cons, List.foldl_nil, AmpGroup.flagged, AmpGroup.allFlagged, AmpGroup.mk.injEq, true_and]
  refine ⟨Vector.ext fun i hi => ?overRun, Vector.ext fun i hi => ?episode, trivial⟩
  all_goals interval_cases i <;> simp

/-- R88: flags that raise no event keep the open episodes. -/
theorem AmpGroup.allFlagged_quiet
    (quiet : ∀ k : Fin 4, flags.getLsbD k.val = true → x.overRun[k] < 19 ∨ x.episode[k] = true) :
    x.allFlagged flags =
      { x with
        overRun := .ofFn fun k => if flags.getLsbD k.val then min 20 (x.overRun[k] + 1) else 0
        episode := .ofFn fun k => flags.getLsbD k.val && x.episode[k] } :=
  congrArg (fun e => { x.allFlagged flags with episode := .ofFn e }) (funext fun k => quiet_episode (quiet k))

/-- R88: a raised event leaves the run at 20 and the episode open. -/
theorem AmpGroup.allFlagged_raised (h : x.raises flags k) :
    (x.allFlagged flags).overRun[k] = 20 ∧ (x.allFlagged flags).episode[k] = true := by
  obtain ⟨flag, late, -⟩ := h
  have twenty : min 20 (x.overRun[k] + 1) = 20 := by omega
  have opens : (x.episode[k] || decide (19 ≤ x.overRun[k])) = true := by rw [decide_eq_true late, Bool.or_true]
  refine ⟨(Vector.getElem_ofFn k.isLt).trans ((if_pos flag).trans twenty), (Vector.getElem_ofFn k.isLt).trans ?_⟩
  rw [flag, Bool.true_and]
  exact opens

end

/-! ## A flag on the machine -/

section
variable (g : Group) (flags : Byte) (s : State) (k : Fin 4)

/-- The flag counted, and where it raises the event the AMP record and the hand-over. -/
theorem applyOverload_eq :
    applyOverload g flags s k =
      if (countOverload (flags.getLsbD k.val) (s.al.get g).overRun[k] (s.al.get g).episode[k]).2.2 = true then
        handOverload (offerAt s.count (.amp g .overload (some (groupChannel g k)))
          (putGroup g ((s.al.get g).flagged flags k) s))
      else putGroup g ((s.al.get g).flagged flags k) s := by
  obtain ⟨run, episode⟩ := countOverload_kept (flags.getLsbD k.val) (s.al.get g).overRun[k] (s.al.get g).episode[k]
  unfold AmpGroup.flagged
  rw [← run, ← episode]
  rfl

variable {flags s k}

theorem applyOverload_quiet (h : ¬ (s.al.get g).raises flags k) :
    applyOverload g flags s k = putGroup g ((s.al.get g).flagged flags k) s := by
  rw [applyOverload_eq, if_neg (mt (countOverload_raised _ _ _).1 h)]

theorem applyOverload_raised (h : (s.al.get g).raises flags k) :
    applyOverload g flags s k =
      handOverload (offerAt s.count (.amp g .overload (some (groupChannel g k)))
        (putGroup g ((s.al.get g).flagged flags k) s)) := by
  rw [applyOverload_eq, if_pos ((countOverload_raised _ _ _).2 h)]

end

/-! ## The sequencer's answer (R89, R165) -/

section
variable {s : State} {r : RunSettings}

theorem handOverload_outside (h : s.inRun = false) : handOverload s = s := by
  unfold handOverload
  rw [h]
  rfl

theorem handOverload_inRun (run : s.inRun = true) (hs : s.sq.settings = some r) :
    handOverload s = if r.action = .abort then runEnd .ampFault s else s := by
  unfold handOverload
  rw [run, hs]
  rfl

end

theorem handOverload_cases (s : State) : handOverload s = runEnd .ampFault s ∨ handOverload s = s := by
  unfold handOverload
  split
  · split
    · split
      · exact .inl rfl
      · exact .inr rfl
    · exact .inr rfl
  · exact .inr rfl

theorem handOverload_al (s : State) : (handOverload s).al = s.al := by
  obtain e | e := handOverload_cases s <;> rw [e]
  exact runEnd_al .ampFault s

theorem applyOverload_al (g : Group) (flags : Byte) (s : State) (k : Fin 4) :
    (applyOverload g flags s k).al = s.al.put g ((s.al.get g).flagged flags k) := by
  by_cases h : (s.al.get g).raises flags k
  · rw [applyOverload_raised g h, handOverload_al, offerAt_al, putGroup_al]
  · rw [applyOverload_quiet g h, putGroup_al]

/-! ## The four flags of an acknowledgment -/

theorem foldl_applyOverload_get (g : Group) (flags : Byte) (l : List (Fin 4)) (s : State) :
    (l.foldl (applyOverload g flags) s).al.get g = l.foldl (AmpGroup.flagged flags) (s.al.get g) := by
  induction l generalizing s with
  | nil => rfl
  | cons k l ih => rw [List.foldl_cons, List.foldl_cons, ih, applyOverload_al, perGroup_get_put]

/-- Flags that raise no event change their group alone. -/
theorem foldl_applyOverload_quiet {g : Group} {flags : Byte} {l : List (Fin 4)} (once : l.Nodup) (x : AmpGroup)
    (s : State) (quiet : ∀ k ∈ l, ¬ x.raises flags k) :
    l.foldl (applyOverload g flags) (putGroup g x s) = putGroup g (l.foldl (AmpGroup.flagged flags) x) s := by
  induction l generalizing x with
  | nil => rfl
  | cons k l ih =>
    obtain ⟨fresh, once⟩ := List.nodup_cons.1 once
    have group : (putGroup g x s).al.get g = x := by rw [putGroup_al, perGroup_get_put]
    have first : applyOverload g flags (putGroup g x s) k = putGroup g (x.flagged flags k) s := by
      rw [applyOverload_quiet g (by rw [group]; exact quiet k (.head l)), group, putGroup_putGroup]
    rw [List.foldl_cons, List.foldl_cons, first]
    refine ih once (x.flagged flags k) fun j hj => ?_
    rw [AmpGroup.flagged_raises_ne flags x fun (e : k = j) => fresh (e.symm ▸ hj)]
    exact quiet j (.tail k hj)

/-- The run under ABORT goes on, or an overload event has ended it. -/
def AbortRun (s : State) : Prop := s.inRun = true ∧ ∃ r, s.sq.settings = some r ∧ r.action = .abort

/-- A run has ended AMPFAULT. -/
def Faulted (s : State) : Prop := s.inRun = false ∧ s.sq.lastOutcome = some .ampFault

theorem faulted_runEnd (s : State) : Faulted (runEnd .ampFault s) := ⟨runEnd_inRun _ s, runEnd_lastOutcome _ s⟩

theorem AbortRun.handed {s : State} (h : AbortRun s) : Faulted (handOverload s) := by
  obtain ⟨run, r, hs, abort⟩ := h
  rw [handOverload_inRun run hs, if_pos abort]
  exact faulted_runEnd s

section
variable {g : Group} {flags : Byte} {s : State} {k : Fin 4}

/-- Counting a flag and writing its record leave the sequencer. -/
theorem offerAt_putGroup_sq (body : RecordBody) (x : AmpGroup) (c : Nat) :
    (offerAt c body (putGroup g x s)).sq = s.sq := by
  rw [offerAt_sq, putGroup_sq]

theorem Faulted.applyOverload (h : Faulted s) : Faulted (applyOverload g flags s k) := by
  by_cases raised : (s.al.get g).raises flags k
  · have counted : Faulted (offerAt s.count (.amp g .overload (some (groupChannel g k)))
        (putGroup g ((s.al.get g).flagged flags k) s)) := by
      rwa [Faulted, State.inRun, offerAt_putGroup_sq]
    rw [applyOverload_raised g raised, handOverload_outside counted.1]
    exact counted
  · rw [applyOverload_quiet g raised]
    exact h

theorem AbortRun.applyOverload_raised (h : AbortRun s) (raised : (s.al.get g).raises flags k) :
    Faulted (applyOverload g flags s k) := by
  rw [Machine.applyOverload_raised g raised]
  refine AbortRun.handed ?_
  rwa [AbortRun, State.inRun, offerAt_putGroup_sq]

theorem AbortRun.applyOverload (h : AbortRun s) :
    AbortRun (applyOverload g flags s k) ∨ Faulted (applyOverload g flags s k) := by
  by_cases raised : (s.al.get g).raises flags k
  · exact .inr (h.applyOverload_raised raised)
  · rw [applyOverload_quiet g raised]
    exact .inl h

end

theorem Faulted.foldl {g : Group} {flags : Byte} (l : List (Fin 4)) {s : State} (h : Faulted s) :
    Faulted (l.foldl (Machine.applyOverload g flags) s) := by
  induction l generalizing s with
  | nil => exact h
  | cons k l ih => exact ih h.applyOverload

/-- R89, R165: under ABORT a raised event ends the run, whichever flag raises it. -/
theorem AbortRun.foldl_raised {g : Group} {flags : Byte} {k : Fin 4} {l : List (Fin 4)} (hk : k ∈ l) {s : State}
    (h : AbortRun s) (raised : (s.al.get g).raises flags k) : Faulted (l.foldl (Machine.applyOverload g flags) s) := by
  induction l generalizing s with
  | nil => cases hk
  | cons j l ih =>
    by_cases here : k = j
    · subst here
      exact (h.applyOverload_raised raised).foldl l
    · obtain on | ended := h.applyOverload (g := g) (flags := flags) (k := j)
      · refine ih ((List.mem_cons.1 hk).resolve_left here) on ?_
        rw [applyOverload_al, perGroup_get_put]
        exact (AmpGroup.flagged_raises_ne flags _ (Ne.symm here)).2 raised
      · exact ended.foldl l

end Sys2Proof.Machine

/-! # An acknowledgment (R81, R82, R85, R87, R88) -/

namespace Sys2Proof.Machine

section
variable {g : Group} {number flags : Byte} {check : Half} {s : State}

theorem acknowledge_discarded (h : ackTaken (s.al.get g) number flags check ≠ true) :
    acknowledge g number flags check s = s := if_neg h

theorem acknowledge_overTemp (h : ackTaken (s.al.get g) number flags check = true) (hot : flags.getLsbD 4 = true) :
    acknowledge g number flags check s =
      enterFault g .overTemp (putGroup g { s.al.get g with outstanding := none, missed := 0 } s) :=
  (if_pos h).trans (if_pos hot)

/-- The group of a taken acknowledgment, before its overload flags. -/
def AmpGroup.acknowledged (x : AmpGroup) : AmpGroup := { x with outstanding := none, missed := 0 }.countAck

theorem acknowledge_counted (h : ackTaken (s.al.get g) number flags check = true) (cool : flags.getLsbD 4 = false) :
    acknowledge g number flags check s =
      (List.finRange 4).foldl (applyOverload g flags) (putGroup g (s.al.get g).acknowledged s) :=
  (if_pos h).trans (if_neg (by rw [overTempFlag, cool]; exact Bool.false_ne_true))

end

/-- Settles O43: discarded, over-temperature, and taken with no event; then the entry to FAULT. -/
theorem acknowledgmentIsTakenOrDiscarded : Obligations.AcknowledgmentIsTakenOrDiscarded := by
  refine ⟨fun g number flags check s hr => ?acknowledged, fun g cause s => ?fault⟩
  case acknowledged =>
    intro x taken acked
    rw [exec_acknowledgment hr]
    refine ⟨fun discarded => ?_, fun took hot => ?_, fun took cool quiet => ?_⟩
    · rw [acknowledge_discarded (mt (ackTaken_iff x number flags check).1 discarded)]
    · obtain ⟨group, idle, outcome⟩ := settle_enterFault g .overTemp { x with outstanding := none, missed := 0 } s
      rw [acknowledge_overTemp ((ackTaken_iff x number flags check).2 took) hot]
      exact ⟨_, rfl, rfl, by rw [group], by rw [group], by rw [group], fun ready => (idle ready).1, outcome⟩
    · have silent (k : Fin 4) : ¬ x.acknowledged.raises flags k := fun ⟨flag, late, closed⟩ =>
        (quiet k flag).elim (Nat.not_lt.2 late) fun opened => by cases closed.symm.trans opened
      rw [acknowledge_counted ((ackTaken_iff x number flags check).2 took) cool,
        foldl_applyOverload_quiet (List.nodup_finRange 4) _ _ fun k _ => silent k, AmpGroup.foldl_flagged,
        AmpGroup.allFlagged_quiet flags x.acknowledged quiet]
      rfl
  case fault =>
    intro x faulty recorded noticed
    have al : recorded.al = faulty.al := by
      rw [← offerAt_al s.count (.amp g cause none) faulty, offerAt_putGroup]
    refine ⟨⟨_, rfl, rfl, ?_⟩, enterFault_ready, fun h => if_neg h⟩
    rw [snapshot_group, al, putGroup_al, perGroup_get_put]

end Sys2Proof.Machine

/-! # Settling completed and overload events (R85, R88, R89, R91, R165; logs 26, 44) -/

namespace Sys2Proof.Machine

theorem groupChannel_eq {g : Group} {k : Fin 4} {ch : Fin 8} (h : ch.val = (if g = .v then 0 else 4) + k.val) :
    groupChannel g k = ch := by
  apply Fin.ext
  rw [h]
  cases g
  · exact (Nat.zero_add _).symm
  · rfl

/-- The group after an acknowledgment that is counted, whatever its flags raise. -/
theorem counted_group (g : Group) (flags : Byte) (x : AmpGroup) (s : State) :
    ((List.finRange 4).foldl (applyOverload g flags) (putGroup g x s)).al.get g = x.allFlagged flags := by
  rw [foldl_applyOverload_get, AmpGroup.foldl_flagged, putGroup_al, perGroup_get_put]

theorem abortRun_putGroup {g : Group} {x : AmpGroup} {s : State} : AbortRun (putGroup g x s) ↔ AbortRun s := .rfl

theorem settle_faulted {s : State} (h : Faulted s) : Faulted (settle s) := by
  rwa [Faulted, settle_inRun, (settle_parts s).1]

/-- Settles O44: the three rows of an acknowledgment, one channel's flag, and the sequencer's answer. -/
theorem settlingAndOverloadEvents : Obligations.SettlingAndOverloadEvents := by
  refine ⟨fun g number flags check s hr => ?rows, fun g flags k ch s hch => ?flag,
    fun s => ⟨handOverload_outside, fun r run hs => ⟨fun abort => ?_, fun record => ?_⟩⟩⟩
  case rows =>
    intro x acked counted sound named cool
    have group : counted.al.get g = x.acknowledged.allFlagged flags := counted_group g flags x.acknowledged s
    have whole (sent : x.state = .settling ∨ x.state = .ready) : acknowledge g number flags check s = counted :=
      acknowledge_counted ((ackTaken_iff x number flags check).2 ⟨sound, sent, named⟩) cool
    refine ⟨fun sent => ?_, fun settling last => ?_, fun k sent flag late closed => ?_⟩
    · rw [exec_acknowledgment hr, whole sent]
    · have due := (settlingDue_iff g number flags check s).2 ⟨⟨sound, named, cool⟩, settling, last⟩
      have full : acked = 2000 := by simp [acked, last]
      rw [← whole (.inl settling)]
      refine ⟨_, exec_due hr rfl due, rfl, ?_⟩
      rw [whole (.inl settling), settle_al, group]
      exact ⟨if_pos ⟨settling, full⟩, full, rfl, rfl⟩
    · have due := (overloadDue_iff g k number flags check s).2 ⟨⟨sound, named, cool⟩, sent, flag, late, closed⟩
      rw [← whole sent]
      refine ⟨_, exec_due hr rfl due, rfl, ?_⟩
      rw [whole sent, settle_al, group]
      have raised : x.acknowledged.raises flags k := ⟨flag, late, closed⟩
      obtain ⟨twenty, opened⟩ := AmpGroup.allFlagged_raised flags x.acknowledged raised
      refine ⟨twenty, opened, fun r run hs abort => ?_⟩
      refine settle_faulted (AbortRun.foldl_raised (List.mem_finRange k) ?_ ?_)
      · exact abortRun_putGroup.2 ⟨run, r, hs, abort⟩
      · rwa [putGroup_al, perGroup_get_put]
  case flag =>
    intro x flag raised kept
    refine ⟨applyOverload_quiet g, fun h => ?_⟩
    rw [applyOverload_raised g h, offerAt_putGroup, groupChannel_eq hch]
    rfl
  · rw [handOverload_inRun run hs, if_pos abort]
  · rw [handOverload_inRun run hs, if_neg (by rw [record]; decide)]

end Sys2Proof.Machine

/-! # BRKSET (R93, R94) -/

namespace Sys2Proof.Machine

/-! ## The body's two-valued codes -/

theorem twoValued_notZero {b : Byte} (h : ¬ 1 < b.toNat) : twoValued b.toNat = some (!decide (b = 0)) := by
  have zero : b = 0 ↔ b.toNat = 0 := BitVec.toNat_inj (y := 0#8).symm
  rw [twoValued_some h, Option.some_inj, decide_eq_decide.2 zero, ← decide_not, decide_eq_decide]
  omega

theorem byteOf_notZero {b : Byte} (h : ¬ 1 < b.toNat) : byteOf (boolCode (!decide (b = 0))) = [b] := by
  revert b
  decide

theorem byteOf_side {side : Byte} (h : ¬ 1 < side.toNat) :
    byteOf (if side = 1 then VoltageSide.line else .bus).code = [side] := by
  revert side
  decide

theorem clampStatus_of_iff {limited : Bool} {unchanged : Prop} [Decidable unchanged]
    (h : limited = true ↔ ¬ unchanged) : clampStatus limited = if unchanged then .ok else .clamped := by
  by_cases same : unchanged
  · rw [if_pos same, Bool.eq_false_iff.2 fun e => h.1 e same]
    rfl
  · rw [if_neg same, h.2 same]
    rfl

/-! ## The request -/

section
variable {openA openB openC close arcing charge discrepancy : Word} {side : Byte} {openAmp : Half}
  {posA posB posC spring : Byte}

/-- R93: a code outside its field is refused, whatever the state. -/
theorem requestBrkset_range (s : State)
    (h : 1 < side.toNat ∨ 1 < posA.toNat ∨ 1 < posB.toNat ∨ 1 < posC.toNat ∨ 1 < spring.toNat) :
    requestBrkset openA openB openC close arcing charge discrepancy side openAmp posA posB posC spring s =
      refuse .range s := by
  have missing : twoValued side.toNat = none ∨ twoValued posA.toNat = none ∨ twoValued posB.toNat = none ∨
      twoValued posC.toNat = none ∨ twoValued spring.toNat = none :=
    h.imp twoValued_none (.imp twoValued_none (.imp twoValued_none (.imp twoValued_none twoValued_none)))
  unfold requestBrkset
  split
  · next hside ha hb hc hspring => simp [hside, ha, hb, hc, hspring] at missing
  · rfl

/-- R93: a quantity was limited exactly where one differs from what the body asks. -/
theorem breakerClamped_iff (x : BreakerSettings) :
    breakerClamped openA openB openC close arcing charge discrepancy openAmp x = true ↔
      ¬ (x.opening.a = openA.toNat ∧ x.opening.b = openB.toNat ∧ x.opening.c = openC.toNat ∧
        x.closing = close.toNat ∧ x.arcing = arcing.toNat ∧ x.charge = charge.toNat ∧
        x.discrepancy = discrepancy.toNat ∧ x.openAmp = openAmp.toNat) := by
  simp only [breakerClamped, Bool.or_eq_true, decide_eq_true_eq]
  tauto

/-- The settings that a body with codes 0 and 1 gives. -/
def brksetSettings (openA openB openC close arcing charge discrepancy : Word) (side : Byte) (openAmp : Half)
    (posA posB posC spring : Byte) : BreakerSettings :=
  breakerSettings openA openB openC close arcing charge discrepancy (decide (side = 1)) openAmp
    (!decide (posA = 0)) (!decide (posB = 0)) (!decide (posC = 0)) (!decide (spring = 0))

theorem brksetSettings_eq :
    brksetSettings openA openB openC close arcing charge discrepancy side openAmp posA posB posC spring =
      { opening := ⟨clampNat 0 500000 openA.toNat, clampNat 0 500000 openB.toNat, clampNat 0 500000 openC.toNat⟩
        closing := clampNat 0 1000000 close.toNat, arcing := clampNat 1000 100000 arcing.toNat
        charge := clampNat 0 60000000 charge.toNat
        discrepancy := if discrepancy.toNat = 0 then 0 else clampNat 50000 5000000 discrepancy.toNat
        side := if side = 1 then .line else .bus, openAmp := clampNat 0 32767 openAmp.toNat
        initialClosed := ⟨posA = 0, posB = 0, posC = 0⟩, initialCharged := spring = 0 } := by
  simp [brksetSettings, breakerSettings, clampDiscrepancy]

variable (h : ¬ (1 < side.toNat ∨ 1 < posA.toNat ∨ 1 < posB.toNat ∨ 1 < posC.toNat ∨ 1 < spring.toNat))
include h

/-- R93, R94, past the RANGE checks: BUSY outside IDLE, else the breaker set. -/
theorem requestBrkset_good (s : State) :
    requestBrkset openA openB openC close arcing charge discrepancy side openAmp posA posB posC spring s =
      if s.sq.state ≠ .idle then refuse .busy s
      else
        let x := brksetSettings openA openB openC close arcing charge discrepancy side openAmp posA posB posC spring
        carried (clampStatus (breakerClamped openA openB openC close arcing charge discrepancy openAmp x))
          (breakerReadback x) (setBreaker x s) := by
  simp only [not_or] at h
  obtain ⟨hside, ha, hb, hc, hspring⟩ := h
  have line : twoValued side.toNat = some (decide (side = 1)) := twoValued_good side (Nat.not_lt.1 hside)
  simp only [requestBrkset, line, twoValued_notZero ha, twoValued_notZero hb, twoValued_notZero hc,
    twoValued_notZero hspring]
  rfl

/-- R93: the code bytes of the read-back are the ones sent. -/
theorem breakerReadback_brkset {x : BreakerSettings}
    (hx : x = brksetSettings openA openB openC close arcing charge discrepancy side openAmp posA posB posC spring) :
    breakerReadback x =
      leBytes 4 x.opening.a ++ leBytes 4 x.opening.b ++ leBytes 4 x.opening.c ++ leBytes 4 x.closing ++
        leBytes 4 x.arcing ++ leBytes 4 x.charge ++ leBytes 4 x.discrepancy ++ [side] ++ leBytes 2 x.openAmp ++
        [posA, posB, posC, spring] := by
  simp only [not_or] at h
  obtain ⟨hside, ha, hb, hc, hspring⟩ := h
  rw [brksetSettings_eq] at hx
  simp only [breakerReadback, hx, byteOf_side hside, byteOf_notZero ha, byteOf_notZero hb, byteOf_notZero hc,
    byteOf_notZero hspring, List.append_assoc, List.cons_append, List.nil_append]

end

/-- R121: the outputs follow at the end of the step, whatever they stood at before. -/
theorem answering_refreshOutputs (h : HeldRequest) (status : Status) (payload : List Byte) (running : Bool)
    (s : State) : answering h status payload (refreshOutputs running s) = answering h status payload s := rfl

theorem initialPosition_eq_ite (p : Byte) : initialPosition (decide (p = 0)) = if p = 0 then .closed else .opened := by
  simp [initialPosition]

/-- Settles O14: BRKSET refused by a code, refused outside IDLE, and carried out. -/
theorem brksetSetsTheBreaker : Obligations.BrksetSetsTheBreaker := by
  intro tag openA openB openC close arcing charge discrepancy side openAmp posA posB posC spring s listens h c bad d x
    unchanged position
  have settings : x = brksetSettings openA openB openC close arcing charge discrepancy side openAmp posA posB posC
      spring := brksetSettings_eq.symm
  refine ⟨fun hb => ?range, fun hb hs => ?busy, fun hb hs => ?done⟩ <;> rw [exec_requestOf rfl]
  case range => exact act_refuse listens fun y => requestBrkset_range (putCl y s) hb
  case busy => exact act_refuse listens fun y => (requestBrkset_good hb (putCl y s)).trans (if_pos hs)
  case done =>
    have carriedOut (y : ControlLink) : carryOut h.request (putCl y s) =
        carried (clampStatus (breakerClamped openA openB openC close arcing charge discrepancy openAmp x))
          (breakerReadback x) (putCl y (setBreaker x s)) := by
      refine (requestBrkset_good hb (putCl y s)).trans ((if_neg (not_not_intro hs)).trans ?_)
      rw [← settings]
      rfl
    have set : setBreaker x s = refreshOutputs s.inRun { s with bs := { s.bs with
        settings := x
        poles := ⟨position posA, position posB, position posC⟩
        spring := if spring = 0 then .charged else .charging none
        discrepancy := .idle } } := by
      simp only [setBreaker, applyInitial, PerPole.map, x, position, initialPosition_eq_ite, decide_eq_true_eq]
    rw [act_answer listens carriedOut rfl, set, answering_refreshOutputs, breakerReadback_brkset hb settings,
      clampStatus_of_iff (breakerClamped_iff x)]

end Sys2Proof.Machine

/-! # The discrepancy trip (R110, R111) -/

namespace Sys2Proof.Machine

/-! ## Disagreement and the phase -/

theorem disagreement_iff (poles : PerPole Position) :
    disagreement poles = true ↔
      (∃ p, (poles.get p).isOpenClass = true) ∧ ∃ p, (poles.get p).isOpenClass = false := by
  simp only [disagreement, Bool.and_eq_true, any_iff, Bool.not_eq_true']

theorem disagreement_iff_poleOpen (s : State) :
    disagreement s.bs.poles = true ↔ (∃ p, poleOpen p s) ∧ ∃ p, ¬ poleOpen p s := by
  simp only [disagreement_iff, ← isOpenClass_iff, Bool.not_eq_true]

/-- R110: the phase that stage 6 leaves. -/
def Breaker.phaseAfter (t : Nat) (bs : Breaker) : Discrepancy :=
  if bs.settings.discrepancy = 0 then bs.discrepancy
  else if disagreement bs.poles then
    match bs.discrepancy with
    | .idle => .timing t
    | .timing start => if start + bs.settings.discrepancy ≤ t then .spent start else .timing start
    | .spent start => .spent start
  else .idle

section
variable {t : Nat} {s : State}

theorem judgeDiscrepancy_off (h : s.bs.settings.discrepancy = 0) : judgeDiscrepancy t s = s := if_pos h

theorem judgeDiscrepancy_agreeing (h : s.bs.settings.discrepancy ≠ 0) (agree : disagreement s.bs.poles ≠ true) :
    judgeDiscrepancy t s = putDiscrepancy .idle s := by
  unfold judgeDiscrepancy
  rw [if_neg h, if_neg agree]

variable (h : s.bs.settings.discrepancy ≠ 0) (apart : disagreement s.bs.poles = true)
include h apart

theorem judgeDiscrepancy_idle (phase : s.bs.discrepancy = .idle) :
    judgeDiscrepancy t s = putDiscrepancy (.timing t) s := by
  unfold judgeDiscrepancy
  rw [if_neg h, if_pos apart]
  simp only [phase]

theorem judgeDiscrepancy_spent {start : Nat} (phase : s.bs.discrepancy = .spent start) : judgeDiscrepancy t s = s := by
  unfold judgeDiscrepancy
  rw [if_neg h, if_pos apart]
  simp only [phase]

theorem judgeDiscrepancy_timing {start : Nat} (phase : s.bs.discrepancy = .timing start) :
    judgeDiscrepancy t s =
      if start + s.bs.settings.discrepancy ≤ t then discrepancyTrip t start (putDiscrepancy (.spent start) s)
      else s := by
  unfold judgeDiscrepancy expired
  rw [if_neg h, if_pos apart]
  simp only [phase, decide_eq_true_eq]

end

theorem discrepancyTrip_phase (t start : Nat) (s : State) :
    (discrepancyTrip t start s).bs.discrepancy = s.bs.discrepancy := by
  unfold discrepancyTrip breakerRecord
  rw [offerRun_bs, (tripAll t s).bs]

theorem judgeDiscrepancy_phase (t : Nat) (s : State) : (judgeDiscrepancy t s).bs.discrepancy = s.bs.phaseAfter t := by
  unfold Breaker.phaseAfter
  by_cases zero : s.bs.settings.discrepancy = 0
  · rw [judgeDiscrepancy_off zero, if_pos zero]
  rw [if_neg zero]
  by_cases apart : disagreement s.bs.poles = true
  · rw [if_pos apart]
    cases phase : s.bs.discrepancy with
    | idle => rw [judgeDiscrepancy_idle zero apart phase]; rfl
    | spent start => rw [judgeDiscrepancy_spent zero apart phase, phase]
    | timing start =>
      rw [judgeDiscrepancy_timing zero apart phase]
      dsimp only
      split
      · exact discrepancyTrip_phase _ _ _
      · exact phase
  · rw [judgeDiscrepancy_agreeing zero apart, if_neg apart]
    rfl

/-! ## One pole -/

section
variable {t : Nat} {p : Pole} {s : State}

theorem discrepancyPole_closed (h : s.bs.poles.get p = .closed) :
    discrepancyPole t s p = putPole p (.tripping t) s := by
  simp only [discrepancyPole, h]

theorem discrepancyPole_closing {start : Nat} (h : s.bs.poles.get p = .closing start) :
    discrepancyPole t s p =
      offerRun t (.breaker (.pole p) .tripFree (some (t - start))) (putPole p .opened s) := by
  simp only [discrepancyPole, h]
  rfl

theorem discrepancyPole_other (h : s.bs.poles.get p = .opened ∨ (∃ a, s.bs.poles.get p = .tripping a) ∨
    (∃ a, s.bs.poles.get p = .arcing a)) : discrepancyPole t s p = s := by
  obtain h | ⟨a, h⟩ | ⟨a, h⟩ := h <;> simp only [discrepancyPole, h]

end

/-! ## A sample at which no timed operation of a pole ends -/

/-- No timed operation of a pole in this position ends at run time t (R97). -/
def Position.waits (t : Nat) (x : BreakerSettings) (p : Pole) (y : Position) : Prop :=
  y = .closed ∨ y = .opened ∨ (∃ a, y = .tripping a ∧ t < a + x.opening.get p) ∨
    (∃ a, y = .arcing a ∧ t < a + x.arcing) ∨ (∃ a, y = .closing a ∧ t < a + x.closing)

section
variable {t : Nat} {x : BreakerSettings} {p : Pole}

/-- Stages 1 to 3 leave such a pole: what remains is the interruption (R103) and the trip (R111). -/
theorem samplePosition_waits {y : Position} (h : y.waits t x p) (quenched trips : Bool) :
    samplePosition t x p quenched trips y =
      if trips then (y.interrupted quenched).tripped t else y.interrupted quenched := by
  have stands : ((y.parted t (x.opening.get p)).forced t x.arcing).closedAt t x.closing = y := by
    obtain rfl | rfl | ⟨a, rfl, early⟩ | ⟨a, rfl, early⟩ | ⟨a, rfl, early⟩ := h
    · rfl
    · rfl
    · have parted : Position.parted t (x.opening.get p) (.tripping a) = .tripping a := if_neg (Nat.not_le.2 early)
      rw [parted]
      rfl
    · have forced : Position.forced t x.arcing (.arcing a) = .arcing a := if_neg (Nat.not_le.2 early)
      unfold Position.parted
      rw [forced]
      rfl
    · exact if_neg (Nat.not_le.2 early)
  unfold samplePosition
  rw [stands]

end

section
variable (t : Nat) (s : State)

/-- The breaker when stage 5 begins, pole by pole. -/
theorem waves_pole (p : Pole) :
    (computeWaves t (breakerExpiries t s)).1.bs.poles.get p =
      samplePosition t s.bs.settings p (quenches (dropDcAtEntry (breakerExpiries t s)) p) false
        (s.bs.poles.get p) := by
  rw [waves_bs]
  simp only [expiredPoles, mapEach_get]
  rfl

theorem computeSample_phase :
    (computeSample t s).1.bs.discrepancy =
      { s.bs with poles := (computeWaves t (breakerExpiries t s)).1.bs.poles }.phaseAfter t := by
  have charged := bs_of_bare (chargeSpring_bare t (computeWaves t (breakerExpiries t s)).1)
  have after : (computeSample t s).1.bs.discrepancy =
      (judgeDiscrepancy t (chargeSpring t (computeWaves t (breakerExpiries t s)).1)).bs.discrepancy := by
    rw [computeSample_eq, refreshOutputs_bs]
    simp only [computeWaves_eq]
  rw [after, judgeDiscrepancy_phase, charged, waves_bs]
  rfl

/-- The timer expires at a sample that finds a pole in the open class, and one out of it whose arc is not quenched. -/
theorem sampleTrips_of_waits {start : Nat} (phase : s.bs.discrepancy = .timing start)
    (nonzero : s.bs.settings.discrepancy ≠ 0) (late : start + s.bs.settings.discrepancy ≤ t)
    (waits : ∀ p, (s.bs.poles.get p).waits t s.bs.settings p) (opens : ∃ p, (s.bs.poles.get p).isOpenClass = true)
    (shut : ∃ p, s.bs.poles.get p = .closed ∨ (∃ a, s.bs.poles.get p = .tripping a) ∨
      ((∃ a, s.bs.poles.get p = .arcing a) ∧ quenches (dropDcAtEntry (breakerExpiries t s)) p = false)) :
    sampleTrips t s = true := by
  have left (p : Pole) := (waves_pole t s p).trans (samplePosition_waits (waits p) _ _)
  have apart : disagreement (computeWaves t (breakerExpiries t s)).1.bs.poles = true := by
    rw [disagreement_iff]
    constructor
    · obtain ⟨p, hp⟩ := opens
      refine ⟨p, ?_⟩
      rwa [left, if_neg Bool.false_ne_true, Position.interrupted_other]
      intro a arcs
      rw [arcs] at hp
      cases hp
    · obtain ⟨p, hp⟩ := shut
      refine ⟨p, ?_⟩
      rw [left]
      obtain hp | ⟨a, hp⟩ | ⟨⟨a, hp⟩, arcs⟩ := hp <;> rw [hp]
      · rfl
      · rfl
      · rw [arcs]; rfl
  unfold sampleTrips
  rw [discrepancyExpires_iff]
  refine ⟨?_, apart, start, ?_⟩ <;> rw [waves_bs]
  · exact nonzero
  · exact ⟨phase, late⟩

end

/-! ## A sample that finds the poles at rest (R116, R117) -/

theorem perPole_ext {α : Type} {x y : PerPole α} (h : ∀ p, x.get p = y.get p) : x = y := by
  cases x
  cases y
  congr
  exacts [h .a, h .b, h .c]

theorem sampleTrips_idle {t : Nat} {s : State} (phase : s.bs.discrepancy = .idle) : sampleTrips t s = false := by
  rw [Bool.eq_false_iff, ne_eq, sampleTrips_iff, phase]
  rintro ⟨-, -, start, timing, -⟩
  cases timing

section
variable {t : Nat} {s : State} (rest : ∀ p, s.bs.poles.get p = .closed ∨ s.bs.poles.get p = .opened)
include rest

/-- Nothing moves a pole at rest but the trip. -/
theorem samplePosition_rest (p : Pole) (quenched : Bool) :
    samplePosition t s.bs.settings p quenched false (s.bs.poles.get p) = s.bs.poles.get p := by
  obtain h | h := rest p <;> rw [h] <;> rfl

theorem waves_rest : (computeWaves t (breakerExpiries t s)).1.bs.poles = s.bs.poles :=
  perPole_ext fun p => (waves_pole t s p).trans (samplePosition_rest rest p _)

theorem disagreement_rest :
    disagreement s.bs.poles = true ↔ (∃ p, s.bs.poles.get p = .opened) ∧ ∃ p, s.bs.poles.get p = .closed := by
  rw [disagreement_iff]
  refine and_congr (exists_congr fun p => ?_) (exists_congr fun p => ?_)
  all_goals obtain h | h := rest p <;> simp [h, Position.isOpenClass]

theorem computeSample_rest (phase : s.bs.discrepancy = .idle) :
    (computeSample t s).1.bs =
      { s.bs with
        spring := s.bs.spring.chargedAt t s.bs.settings.charge
        discrepancy := s.bs.phaseAfter t } := by
  obtain ⟨left, e⟩ := computeSample_bs t s
  have judged := computeSample_phase t s
  have still : s.bs.poles.mapEach (fun p x => samplePosition t s.bs.settings p
      (quenches (dropDcAtEntry (breakerExpiries t s)) p) false x) = s.bs.poles :=
    perPole_ext fun p => (mapEach_get _ _ _).trans (samplePosition_rest rest p _)
  rw [sampleTrips_idle phase, still] at e
  rw [waves_rest rest, e] at judged
  obtain rfl : left = s.bs.phaseAfter t := judged
  exact e

end

theorem Spring.chargedAt_late {t charge start : Nat} (h : start + charge ≤ t) :
    (Spring.charging (some start)).chargedAt t charge = .charged := if_pos h

theorem Spring.chargedAt_waiting {t charge : Nat} {x : Spring}
    (h : ∀ start, x = .charging (some start) → t < start + charge) : x.chargedAt t charge = x := by
  unfold Spring.chargedAt
  split
  · next start => exact if_neg (Nat.not_le.2 (h start rfl))
  · rfl

section
variable {t : Nat} {bs : Breaker}

theorem Breaker.phaseAfter_starts (time : bs.settings.discrepancy ≠ 0) (apart : disagreement bs.poles = true)
    (phase : bs.discrepancy = .idle) : bs.phaseAfter t = .timing t := by
  simp only [Breaker.phaseAfter, if_neg time, if_pos apart, phase]

theorem Breaker.phaseAfter_stays (h : bs.settings.discrepancy = 0 ∨ disagreement bs.poles ≠ true)
    (phase : bs.discrepancy = .idle) : bs.phaseAfter t = .idle := by
  unfold Breaker.phaseAfter
  by_cases time : bs.settings.discrepancy = 0
  · rw [if_pos time, phase]
  · rw [if_neg time, if_neg (h.resolve_left time)]

theorem Breaker.phaseAfter_trips {start : Nat} (h : discrepancyExpires t bs = true)
    (phase : bs.discrepancy = .timing start) : bs.phaseAfter t = .spent start := by
  obtain ⟨time, apart, began, timing, late⟩ := (discrepancyExpires_iff t bs).1 h
  obtain rfl : start = began := Discrepancy.timing.inj (phase.symm.trans timing)
  simp only [Breaker.phaseAfter, if_neg time, if_pos apart, phase, if_pos late]

end

/-! ## The grid instant of the trip -/

theorem computeSample_trips {t start : Nat} {s : State} (trips : sampleTrips t s = true)
    (phase : s.bs.discrepancy = .timing start) : (computeSample t s).1.bs.discrepancy = .spent start := by
  rw [computeSample_phase]
  refine Breaker.phaseAfter_trips ?_ phase
  unfold sampleTrips at trips
  rw [waves_bs] at trips
  rw [waves_bs]
  exact trips

/-- R103 at a plain sample: the arc's condition is that of the state before the sample. -/
theorem quenches_plain {s g : State} (plain : plainSample s) (hg : g = s ∨ g = takeGrid s) (p : Pole) :
    quenches (dropDcAtEntry (breakerExpiries s.now (beginSample s.now g))) p = true ↔ arcCrosses p s := by
  obtain ⟨-, none, late⟩ := plain
  have parts : entryDue g = .none ∧ g.sq = s.sq ∧ g.ws.live = s.ws.live := by
    obtain rfl | rfl := hg
    · exact ⟨none, rfl, rfl⟩
    · exact ⟨none, rfl, rfl⟩
  obtain ⟨due, sq, live⟩ := parts
  have same : beginSample s.now g = g := by simp only [beginSample, due]
  have expired := breakerExpiries_positioned s.now g
  have ws : (dropDcAtEntry (breakerExpiries s.now g)).ws.live = s.ws.live := by
    unfold dropDcAtEntry
    rw [expired.sampled.sq, sq, late, if_neg Bool.false_ne_true, expired.ws, live]
  rw [← quenches_iff, same]
  simp only [quenches, ws]

theorem RunFate.phase {s t : State} (h : RunFate s t) :
    t.bs.discrepancy = s.bs.discrepancy ∨ (t.inRun = false ∧ t.bs.discrepancy = .idle) := by
  obtain ⟨-, hb⟩ | ⟨-, ht, hb⟩ := h
  · exact .inl (by rw [hb])
  · exact .inr ⟨ht, by rw [hb]; rfl⟩

/-- A run end resolves a pole under way to OPEN (R118). -/
theorem RunFate.pole {s t : State} (h : RunFate s t) (run : s.inRun = true) (p : Pole) :
    (t.inRun = true ∧ t.bs.poles.get p = s.bs.poles.get p) ∨
      (t.inRun = false ∧ t.bs.poles.get p = (s.bs.poles.get p).resolved) := by
  obtain ⟨hr, hb⟩ | ⟨-, ht, hb⟩ := h
  · exact .inl ⟨hr.trans run, by rw [hb]⟩
  · refine .inr ⟨ht, ?_⟩
    rw [hb]
    exact (map_resolved_get _ p).trans (resolved_eq _).symm

/-- The discrepancy timer has expired at a sample at which no timed operation of a pole ends, and the disagreement
stands (R110). -/
structure TripStands (start : Nat) (s : State) : Prop where
  here : sampleHere s
  phase : s.bs.discrepancy = .timing start
  nonzero : s.bs.settings.discrepancy ≠ 0
  late : start + s.bs.settings.discrepancy ≤ s.now
  waits : ∀ p, (s.bs.poles.get p).waits s.now s.bs.settings p
  opens : ∃ p, poleOpen p s
  shut : ∃ p, s.bs.poles.get p = .closed ∨ (∃ a, s.bs.poles.get p = .tripping a) ∨
    (plainSample s ∧ (∃ a, s.bs.poles.get p = .arcing a) ∧ ¬ arcCrosses p s)

section
variable {start : Nat} {s : State} (h : TripStands start s)
include h

theorem TripStands.trips {g : State} (hg : g = s ∨ g = takeGrid s) :
    sampleTrips s.now (beginSample s.now g) = true := by
  have bs : (beginSample s.now g).bs = s.bs := by
    rw [beginSample_bs]
    obtain rfl | rfl := hg <;> rfl
  have shut : ∃ p, s.bs.poles.get p = .closed ∨ (∃ a, s.bs.poles.get p = .tripping a) ∨
      ((∃ a, s.bs.poles.get p = .arcing a) ∧
        quenches (dropDcAtEntry (breakerExpiries s.now (beginSample s.now g))) p = false) := by
    obtain ⟨p, hp⟩ := h.shut
    exact ⟨p, hp.imp_right (.imp_right fun ⟨plain, arcs, stays⟩ =>
      ⟨arcs, Bool.eq_false_iff.2 fun e => stays ((quenches_plain plain hg p).1 e)⟩)⟩
  have opens : ∃ p, (s.bs.poles.get p).isOpenClass = true := by simpa only [isOpenClass_iff] using h.opens
  apply sampleTrips_of_waits (start := start) <;> rw [bs]
  · exact h.phase
  · exact h.nonzero
  · exact h.late
  · exact h.waits
  · exact opens
  · exact shut

theorem TripStands.exec_trip : exec .discrepancyTrip s = .next (settle (gridInstant s)) := by
  refine exec_due h.here.1 rfl (b := discrepancyDue s) ?_
  exact Bool.and_eq_true_iff.2 ⟨(sampleDue_iff h.here.1).2 h.here, h.trips (.inl rfl)⟩

theorem TripStands.phase_after :
    let t := settle (gridInstant s)
    t.bs.discrepancy = .spent start ∨ (t.inRun = false ∧ t.bs.discrepancy = .idle) := by
  have spent : (gridWork s).1.bs.discrepancy = .spent start :=
    computeSample_trips (h.trips (.inr rfl)) ((congrArg Breaker.discrepancy (beginSample_bs _ _)).trans h.phase)
  exact (gridInstant_fate h.here).phase.imp_left fun e => e.trans spent

/-- R103, R111, R118: the interruption first, then the trip, then the run end where one follows. -/
theorem TripStands.pole_after (p : Pole) :
    ∃ quenched, (plainSample s → (quenched = true ↔ arcCrosses p s)) ∧
      let t := settle (gridInstant s)
      let x := ((s.bs.poles.get p).interrupted quenched).tripped s.now
      (t.inRun = true ∧ t.bs.poles.get p = x) ∨ (t.inRun = false ∧ t.bs.poles.get p = x.resolved) := by
  let u := beginSample s.now (takeGrid s)
  have begun : u.bs = s.bs := beginSample_bs _ _
  refine ⟨quenches (dropDcAtEntry (breakerExpiries s.now u)) p, fun plain => quenches_plain plain (.inr rfl) p, ?_⟩
  have work : (gridWork s).1.bs.poles.get p =
      ((s.bs.poles.get p).interrupted (quenches (dropDcAtEntry (breakerExpiries s.now u)) p)).tripped s.now := by
    obtain ⟨phase, e⟩ := computeSample_bs s.now u
    unfold gridWork
    rw [e, mapEach_get, begun, h.trips (.inr rfl), samplePosition_waits (h.waits p), if_pos rfl]
  dsimp only
  rw [← work]
  exact (gridInstant_fate h.here).pole (gridWork_inRun h.here) p

end

/-! ## The statement -/

/-- Settles O39: the row, R110's table, R111's trip of one pole, and the sample at rest. -/
theorem discrepancyTripsTheClosedPoles : Obligations.DiscrepancyTripsTheClosedPoles := by
  refine ⟨fun start s here phase nonzero late waits opens shut => ?row, fun t s => ?table,
    fun t p s => ⟨discrepancyPole_closed, fun a => discrepancyPole_closing, discrepancyPole_other⟩,
    fun t s rest idle => ?rest⟩
  case row =>
    have stands : TripStands start s := ⟨here, phase, nonzero, late, waits, opens, shut⟩
    refine ⟨_, stands.exec_trip, stands.phase_after, fun p => ?_⟩
    obtain ⟨quenched, crosses, fate⟩ := stands.pole_after p
    refine ⟨fun hp => ?closed, fun hp => ?opened, fun a hp => ?closing, fun a hp => ?tripping,
      fun a hp => ?arcing⟩ <;> rw [hp] at fate
    case closed => exact fate.imp And.right id
    case opened => exact fate.elim And.right And.right
    case closing => exact fate.elim And.right And.right
    case tripping => exact fate.imp And.right id
    case arcing =>
      have moved : Position.tripped s.now ((Position.arcing a).interrupted quenched) =
          if quenched = true then .opened else .arcing a := by cases quenched <;> rfl
      rw [moved] at fate
      obtain ⟨either, opens, stays⟩ := arc_of_fate fate
      exact ⟨either, fun plain hc => opens (.inl ((crosses plain).2 hc)),
        fun plain hc => stays fun e => hc ((crosses plain).1 e)⟩
  case table =>
    intro time phase disagree
    have apart : disagreement s.bs.poles = true ↔ disagree := disagreement_iff_poleOpen s
    refine ⟨judgeDiscrepancy_off, fun ht hd => judgeDiscrepancy_agreeing ht fun e => hd (apart.1 e), fun ht hd =>
      ⟨judgeDiscrepancy_idle ht (apart.2 hd), fun start hp => ?timing,
        fun start => judgeDiscrepancy_spent ht (apart.2 hd)⟩⟩
    have timed := judgeDiscrepancy_timing (t := t) ht (apart.2 hd) hp
    exact ⟨fun early => timed.trans (if_neg (Nat.not_le.2 early)), fun late => timed.trans (if_pos late)⟩
  case rest =>
    intro u disagree
    have bs : u.bs = _ := computeSample_rest rest idle
    have apart : disagreement s.bs.poles = true ↔ disagree := disagreement_rest rest
    rw [bs]
    refine ⟨rfl, rfl, fun start hs late => ?_, Spring.chargedAt_waiting, fun ht hd => ?_, fun h => ?_⟩
    · rw [hs]
      exact Spring.chargedAt_late late
    · exact Breaker.phaseAfter_starts ht (apart.2 hd) idle
    · exact Breaker.phaseAfter_stays (h.imp_right fun hd e => hd (apart.1 e)) idle

end Sys2Proof.Machine

/-! # The outputs after every step (R121, R123, R124, R125) -/

namespace Sys2Proof.Machine

/-! ## Every step leaves the outputs following -/

theorem refreshOutputs_follow (s : State) : outputsFollow (refreshOutputs s.inRun s) :=
  fun k => Vector.getElem_ofFn k.isLt

/-- The outputs follow the breaker, the sequencer and their own block. -/
theorem outputsFollow_of_parts {s t : State} (ho : t.bo = s.bo) (hb : t.bs = s.bs) (hq : t.sq = s.sq)
    (h : outputsFollow s) : outputsFollow t := by
  intro k
  have running : t.inRun = s.inRun := by simp only [State.inRun, hq]
  rw [ho, hb, running]
  exact h k

theorem arbitrate_bo (s : State) : (arbitrate s).bo = s.bo := by
  unfold arbitrate
  repeat' split
  all_goals rfl

/-- The end of a step refreshes the outputs, and the arbiter moves nothing they follow. -/
theorem settle_follows (s : State) : outputsFollow (settle s) := by
  obtain ⟨hq, -, -, hb⟩ := arbitrate_parts (refreshOutputs s.inRun s)
  exact outputsFollow_of_parts (arbitrate_bo _) hb hq (refreshOutputs_follow s)

theorem hardwareReset_follows (line : Bool) (s : State) : outputsFollow (hardwareReset line s) := outputsFollow_reset

theorem exec_follows {c : Instr} {s t : State} (h : outputsFollow s) (e : exec c s = .next t) : outputsFollow t := by
  obtain (rfl | rfl | rfl) | ⟨f, hf, -⟩ := exec_cases c s
  · cases e; exact hardwareReset_follows s.resetLine s
  · cases e; exact hardwareReset_follows true s
  · cases e; exact h
  · rw [hf] at e
    cases hr : s.resetLine with
    | true => rw [act_asserted hr] at e; cases e; exact h
    | false => rw [act_released hr] at e; cases e; exact settle_follows (f s)

theorem advanceCount_follows {s : State} (h : outputsFollow s) : outputsFollow (advanceCount s) := by
  unfold advanceCount
  split <;> exact h

/-- A command and a due event end in `settle` or act on the RESET line; the passing of a count moves nothing that an
output follows. -/
theorem step_follows {s t : State} (h : outputsFollow s) (e : step s = .next t) : outputsFollow t := by
  obtain ⟨c, rest, -, hs⟩ | ⟨-, c, -, n, hs⟩ | hs := step_cases s
  · rw [hs] at e
    exact exec_follows (s := { s with pending := rest }) h e
  · rw [hs] at e
    exact exec_follows (s := { s with free := n }) h e
  · rw [hs] at e
    cases e
    exact advanceCount_follows h

/-! ## What the auxiliary contacts and their sources give -/

/-- R123: the positions in which the a-contact is closed. -/
theorem aContact_iff (x : Position) : x.aContact = true ↔ x = .closed ∨ ∃ start, x = .tripping start := by
  cases x <;> simp [Position.aContact]

theorem bContact_iff (x : Position) : (!x.aContact) = true ↔ ¬ (x = .closed ∨ ∃ start, x = .tripping start) := by
  rw [← aContact_iff, Bool.not_eq_true', Bool.not_eq_true]

theorem allA_iff (poles : PerPole Position) :
    poles.every Position.aContact = true ↔ ∀ p, poles.get p = .closed ∨ ∃ start, poles.get p = .tripping start := by
  simp only [every_iff, aContact_iff]

theorem anyB_iff (poles : PerPole Position) :
    poles.any (fun x => !x.aContact) = true ↔
      ∃ p, ¬ (poles.get p = .closed ∨ ∃ start, poles.get p = .tripping start) := by
  simp only [any_iff, bContact_iff]

/-- Settles O57: the step, then the sources in the order of R121, each by what its contact gives. -/
theorem everyStepLeavesTheOutputsFollowing : Obligations.EveryStepLeavesTheOutputsFollowing :=
  ⟨fun _ _ => step_follows, fun poles spring _ _ _ =>
    ⟨rfl, rfl, aContact_iff poles.a, bContact_iff poles.a, aContact_iff poles.b, bContact_iff poles.b,
      aContact_iff poles.c, bContact_iff poles.c, allA_iff poles, anyB_iff poles, isCharged_iff spring, rfl, rfl⟩⟩

end Sys2Proof.Machine

/-! # OUTSET (R122) -/

namespace Sys2Proof.Machine

/-! ## The codes of the sources -/

theorem OutSource.code_of_ofCode {n : Nat} {x : OutSource} (h : OutSource.ofCode n = some x) : x.code = n := by
  unfold OutSource.ofCode at h
  split at h <;> cases h <;> rfl

theorem OutSource.code_eq_stateBit (x : OutSource) : x.code = 11 ↔ x = .stateBit := by
  cases x <;> decide

theorem OutSource.eq_stateBit_iff {source : Byte} {x : OutSource} (h : OutSource.ofCode source.toNat = some x) :
    x = .stateBit ↔ source = 11 := by
  rw [← OutSource.code_eq_stateBit, OutSource.code_of_ofCode h]
  exact BitVec.toNat_inj (y := 11)

/-! ## The request -/

/-- R122: the bit number an OUTSET sets, the one given with STATE_BIT and 0 with any other source. -/
def outsetBit (source bit : Byte) : Fin 8 := if source = 11 then Fin.ofNat 8 bit.toNat else 0

section
variable {output source bit : Byte}

theorem requestOutset_range (s : State)
    (h : output = 0 ∨ 8 < output.toNat ∨ 12 < source.toNat ∨ (source = 11 ∧ 7 < bit.toNat)) :
    requestOutset output source bit s = refuse .range s := by
  unfold requestOutset
  cases hk : outputOfCode output with
  | none => rfl
  | some k =>
    cases hx : OutSource.ofCode source.toNat with
    | none => rfl
    | some x =>
      have inside : ¬ (output = 0 ∨ 8 < output.toNat) := by simp [← outputOfCode_none, hk]
      have named : ¬ 12 < source.toNat := by simp [← OutSource.ofCode_none, hx]
      obtain ⟨hs, hb⟩ := ((or_assoc.2 h).resolve_left inside).resolve_left named
      exact if_pos ⟨(OutSource.eq_stateBit_iff hx).2 hs, hb⟩

variable (h : ¬ (output = 0 ∨ 8 < output.toNat ∨ 12 < source.toNat ∨ (source = 11 ∧ 7 < bit.toNat)))
include h

/-- A body past the RANGE checks names an output and a source. -/
theorem outset_names : (∃ k, outputOfCode output = some k) ∧ ∃ x, OutSource.ofCode source.toNat = some x := by
  simp only [← Option.ne_none_iff_exists', ne_eq, outputOfCode_none, OutSource.ofCode_none]
  tauto

/-- R122, past the RANGE checks: BUSY outside IDLE, else the output set. -/
theorem requestOutset_good {k : Fin 8} {x : OutSource} (hk : outputOfCode output = some k)
    (hx : OutSource.ofCode source.toNat = some x) (s : State) :
    requestOutset output source bit s =
      if s.sq.state ≠ .idle then refuse .busy s
      else
        let t := setOutput k x (outsetBit source bit) s
        carried .ok (outputReadback k t.bo) t := by
  have allowed : ¬ (source = 11 ∧ 7 < bit.toNat) := fun e => h (.inr (.inr (.inr e)))
  simp only [requestOutset, hk, hx, OutSource.eq_stateBit_iff hx, if_neg allowed, outsetBit]

end

/-- R121, R122: the read-back shows the source and bit number set, and what the source gives. -/
theorem outputReadback_setOutput (k : Fin 8) (x : OutSource) (b : Fin 8) (s : State) :
    outputReadback k (setOutput k x b s).bo = byteOf (k.val + 1) ++ byteOf x.code ++ byteOf b.val ++
      byteOf (boolCode (sourceValue s.bs.poles s.bs.spring s.bo.pattern s.inRun b x)) := by
  simp [outputReadback, setOutput, refreshOutputs]

theorem byteOf_toNat (b : Byte) : byteOf b.toNat = [b] := by
  simp [byteOf]

theorem byteOf_boolCode (b : Bool) : byteOf (boolCode b) = [if b then 1 else 0] := by
  cases b <;> rfl

/-- Settles O15: OUTSET refused by a code, refused outside IDLE, and carried out. -/
theorem outsetSetsOneOutput : Obligations.OutsetSetsOneOutput := by
  intro tag output source bit s listens h bad
  refine ⟨fun hb => ?range, fun hb hs => ?busy, fun k x hb hs hk hx => ?done⟩ <;> rw [exec_requestOf rfl]
  case range => exact act_refuse listens fun y => requestOutset_range (putCl y s) hb
  case busy =>
    obtain ⟨⟨k, hk⟩, x, hx⟩ := outset_names hb
    exact act_refuse listens fun y => (requestOutset_good hb hk hx (putCl y s)).trans (if_pos hs)
  case done =>
    let b := outsetBit source bit
    have readback : outputReadback k (setOutput k x b s).bo = [output, source, BitVec.ofNat 8 b.val,
        if sourceValue s.bs.poles s.bs.spring s.bo.pattern false b x then 1 else 0] := by
      rw [outputReadback_setOutput, notRun_of_idle hs, ← hk, OutSource.code_of_ofCode hx, byteOf_toNat, byteOf_toNat,
        byteOf_boolCode]
      rfl
    have carriedOut (y : ControlLink) : carryOut h.request (putCl y s) =
        carried .ok (outputReadback k (setOutput k x b s).bo) (putCl y (setOutput k x b s)) :=
      (requestOutset_good hb (outputOfCode_some output k hk) hx (putCl y s)).trans (if_neg (not_not_intro hs))
    rw [act_answer listens carriedOut rfl, readback]
    exact congrArg _ (answering_refreshOutputs h .ok _ s.inRun _)

end Sys2Proof.Machine

/-! # The body STREAD returns (R137, R204) -/

namespace Sys2Proof.Machine

/-! ## Bytes that stand in a body -/

/-- The bytes of the list stand in the body, one after the other, from an offset on. -/
def standsAt (body : List Byte) : Nat → List Byte → Prop
  | _, [] => True
  | o, b :: l => bodyByte body o = b.toNat ∧ standsAt body (o + 1) l

section
variable {body : List Byte} {o : Nat}

@[simp] theorem standsAt_nil : standsAt body o [] := trivial

@[simp] theorem standsAt_cons {b : Byte} {l : List Byte} :
    standsAt body o (b :: l) ↔ bodyByte body o = b.toNat ∧ standsAt body (o + 1) l := Iff.rfl

theorem standsAt_append {l m : List Byte} :
    standsAt body o (l ++ m) ↔ standsAt body o l ∧ standsAt body (o + l.length) m := by
  induction l generalizing o with
  | nil => simp
  | cons b l ih => simp [ih, and_assoc, Nat.add_assoc, Nat.add_comm 1]

/-- Part n of parts of one width stands n widths behind the first. -/
theorem standsAt_flatten {α : Type} {f : α → List Byte} {w : Nat} (width : ∀ x, (f x).length = w) {l : List α}
    (h : standsAt body o (l.map f).flatten) {n : Nat} (hn : n < l.length) : standsAt body (o + w * n) (f l[n]) := by
  induction l generalizing o n with
  | nil => cases hn
  | cons x l ih =>
    rw [List.map_cons, List.flatten_cons, standsAt_append, width] at h
    obtain ⟨first, others⟩ := h
    cases n with
    | zero => exact first
    | succ n =>
      have behind := ih others (Nat.lt_of_succ_lt_succ hn)
      rwa [Nat.add_assoc, Nat.add_comm w, ← Nat.mul_succ] at behind

theorem standsAt_behind (pre l : List Byte) : standsAt (pre ++ l) pre.length l := by
  induction l generalizing pre with
  | nil => trivial
  | cons b l ih =>
    have rest := ih (pre ++ [b])
    rw [List.append_assoc, List.length_append] at rest
    exact ⟨by simp [bodyByte], rest⟩

theorem standsAt_whole {l : List Byte} (h : body = l) : standsAt body 0 l := h ▸ standsAt_behind [] l

theorem byteOf_length (n : Nat) : (byteOf n).length = 1 := rfl

theorem bodyByte_of_standsAt {n : Nat} (h : standsAt body o (byteOf n)) (hn : n < 256) : bodyByte body o = n :=
  h.1.trans (Nat.mod_eq_of_lt hn)

theorem bodyHalf_of_standsAt {n : Nat} (h : standsAt body o (leBytes 2 n)) (hn : n < 65536) : bodyHalf body o = n := by
  simp only [leBytes_two, standsAt_cons, BitVec.toNat_ofNat] at h
  obtain ⟨h0, h1, -⟩ := h
  rw [bodyHalf, h0, h1]
  omega

theorem bodyWord_of_standsAt {n : Nat} (h : standsAt body o (leBytes 4 n)) (hn : n < 4294967296) :
    bodyWord body o = n := by
  simp only [leBytes_four, standsAt_cons, BitVec.toNat_ofNat, Nat.add_assoc, Nat.reduceAdd] at h
  obtain ⟨h0, h1, h2, h3, -⟩ := h
  simp only [bodyWord, bodyHalf, Nat.add_assoc, Nat.reduceAdd, h0, h1, h2, h3]
  omega

end

/-! ## Entries in range (R136) -/

structure ChannelPart.InRange (p : ChannelPart) : Prop where
  amplitude : p.amplitude ≤ 32767
  angle : p.angle < 36000
  frequency : p.frequency = 0 ∨ 5000 ≤ p.frequency
  frequencyTop : p.frequency ≤ 1000000
  rampTarget : p.rampTarget ≤ 32767
  rampTime : p.rampTime ≤ 60000

def Trigger.InRange (x : Trigger) : Prop := ∀ t, x = .after t → t ≤ 4000000000

/-- The window of an item is in range and not empty (R135, check 6; R136). -/
def Item.InRange (x : Item) : Prop := x.lo ≤ x.hi ∧ x.hi ≤ 4000000000

/-- Every quantity of the entry is in range, and it has no more exits and items than a body can name. -/
structure Entry.InRange (e : Entry) : Prop where
  channels : ∀ ch : Fin 8, e.channels[ch].InRange
  decay : e.decay < 65536
  guard : e.guard ≤ 1000000
  inception : ∀ a, e.inception = some a → a < 36000
  loads : ∀ (c : Fin 4) v, e.loads[c] = some v → v < 256
  exitCount : e.exits.length ≤ 6
  itemCount : e.items.length ≤ 4
  exits : ∀ x ∈ e.exits, x.trigger.InRange
  items : ∀ x ∈ e.items, x.InRange

theorem channelGiven_inRange (body : List Byte) (o : Nat) : (channelGiven body o).InRange where
  amplitude := Nat.min_le_left _ _
  angle := Nat.mod_lt _ (by decide)
  frequency := by simp only [channelGiven]; split <;> omega
  frequencyTop := by simp only [channelGiven]; split <;> omega
  rampTarget := Nat.min_le_left _ _
  rampTime := Nat.min_le_left _ _

theorem readTrigger_inRange (body : List Byte) (o : Nat) : (readTrigger body o).InRange := by
  intro t ht
  rw [readTrigger_after body (readTrigger_eq_after ht), Trigger.after.injEq] at ht
  exact ht ▸ Nat.min_le_left _ _

/-- R136 keeps the order of the two times that check 6 of R135 has found. -/
theorem readItem_inRange {body : List Byte} {n : Nat} (h : itemWindowOk body n = true) : (readItem body n).InRange := by
  simp only [itemWindowOk, decide_eq_true_eq] at h
  simp only [Item.InRange, readItem, clampTime, clampNat_zero]
  omega

theorem bodyHalf_lt (body : List Byte) (o : Nat) : bodyHalf body o < 65536 := by
  have low := bodyByte_lt body o
  have high := bodyByte_lt body (o + 1)
  rw [bodyHalf]
  omega

theorem readEntry_inRange {body : List Byte} (h : entryChecksOk body = true) : (readEntry body).InRange := by
  obtain ⟨channels, decay, guard, inception, -, loads, exitLength, itemLength, -, -⟩ := readEntry_given body
  obtain ⟨-, exitCount, itemCount, -, -, -, -, -, itemChecks⟩ := (entryChecksOk_iff body).1 h
  refine ⟨fun ch => ?channels, ?decay, ?guard, fun a ha => ?inception, fun c v hv => ?loads,
    exitLength.trans_le exitCount, itemLength.trans_le itemCount, fun x hx => ?exits, fun x hx => ?items⟩
  case channels => rw [channels]; exact channelGiven_inRange body _
  case decay => rw [decay]; exact bodyHalf_lt body 115
  case guard => rw [guard]; exact Nat.min_le_left _ _
  case inception =>
    rw [inception] at ha
    split at ha <;> cases ha
    exact Nat.mod_lt _ (by decide)
  case loads =>
    rw [loads] at hv
    split at hv <;> cases hv
    exact bodyByte_lt body _
  case exits =>
    obtain ⟨n, -, rfl⟩ := List.mem_map.1 hx
    exact readTrigger_inRange body _
  case items =>
    obtain ⟨n, hn, rfl⟩ := List.mem_map.1 hx
    obtain ⟨-, -, window⟩ := (itemOk_iff body n).2 (itemChecks n (List.mem_range.1 hn))
    exact readItem_inRange window

/-! ## The parts of an entry, written and read -/

theorem PhaseMode.ofCode_code (m : PhaseMode) : PhaseMode.ofCode m.code = some m := by cases m <;> rfl

theorem DcMode.ofCode_code (m : DcMode) : DcMode.ofCode m.code = some m := by cases m <;> rfl

theorem ItemKind.ofCode_code (k : ItemKind) : ItemKind.ofCode k.code = some k := by cases k <;> rfl

theorem directionGiven_code (d : Direction) : directionGiven d.code = d := by cases d <;> rfl

theorem PhaseMode.code_le (m : PhaseMode) : m.code ≤ 1 := by cases m <;> decide

theorem DcMode.code_le (m : DcMode) : m.code ≤ 2 := by cases m <;> decide

theorem ItemKind.code_le (k : ItemKind) : k.code ≤ 1 := by cases k <;> decide

theorem Direction.code_le (d : Direction) : d.code ≤ 1 := by cases d <;> decide

theorem BreakerEvent.code_le (v : BreakerEvent) : v.code ≤ 8 := by
  rw [← BreakerEvent.ofCode_isSome, BreakerEvent.ofCode_code, Option.isSome_some]

theorem ChannelPart.bytes_length (p : ChannelPart) : p.bytes.length = 14 := by
  simp [ChannelPart.bytes, leBytes_length, byteOf]

theorem Trigger.bytes_length (x : Trigger) : x.bytes.length = 5 := by
  cases x <;> simp [Trigger.bytes, leBytes_length, byteOf]

/-- R204: the target byte of an exit. -/
def Target.code : Target → Nat
  | .state n => n.val
  | .finish => 255

/-- R204: the two bytes of a mark action. -/
def actionBytes : Option MarkAction → List Byte
  | none => [0, 0]
  | some (.set m) => byteOf 1 ++ byteOf m.val
  | some (.clear m) => byteOf 2 ++ byteOf m.val

theorem Exit.bytes_eq (x : Exit) : x.bytes = x.trigger.bytes ++ byteOf x.target.code ++ actionBytes x.action := by
  rcases x with ⟨t, _ | _, _ | _ | _⟩ <;> rfl

/-- R204: the three bytes of an item's subject. -/
def Subject.bytes : Subject → List Byte
  | .edge input direction => byteOf 0 ++ byteOf input.val ++ byteOf direction.code
  | .anyOpen => [1, 0, 0]
  | .allClosed => [2, 0, 0]

theorem Item.bytes_eq (x : Item) :
    x.bytes = x.subject.bytes ++ byteOf x.kind.code ++ leBytes 4 x.lo ++ leBytes 4 x.hi := by
  rcases x with ⟨_ | _ | _, k, lo, hi⟩ <;> rfl

/-- R204: the presence byte and the angle of an inception. -/
def inceptionBytes : Option Nat → List Byte
  | none => [0, 0, 0]
  | some a => byteOf 1 ++ leBytes 2 a

theorem Exit.bytes_length (x : Exit) : x.bytes.length = 8 := by
  have action : (actionBytes x.action).length = 2 := by rcases x.action with _ | _ | _ <;> rfl
  simp [Exit.bytes_eq, Trigger.bytes_length, byteOf, action]

theorem Subject.bytes_length (x : Subject) : x.bytes.length = 3 := by
  cases x <;> rfl

theorem Item.bytes_length (x : Item) : x.bytes.length = 12 := by
  simp [Item.bytes_eq, Subject.bytes_length, leBytes_length, byteOf]

theorem loadBytes_length (x : Option Nat) : (loadBytes x).length = 2 := by
  cases x <;> rfl

theorem inceptionBytes_length (x : Option Nat) : (inceptionBytes x).length = 3 := by
  cases x <;> rfl

/-- A part of a body is read as the part given, passes its checks, and has nothing brought into range. -/
structure ReadsBack {α : Type} (read given : α) (checks : Prop) (clamped : Bool) : Prop where
  same : read = given
  checks : checks
  unclamped : clamped = false

section
variable {body : List Byte} {o : Nat}

/-- The bytes of a channel part at an offset of a body give its fields. -/
theorem ChannelPart.fields_of_standsAt {p : ChannelPart} (h : standsAt body o p.bytes) (r : p.InRange) :
    bodyHalf body o = p.amplitude ∧ bodyHalf body (o + 2) = p.angle ∧ bodyWord body (o + 4) = p.frequency ∧
      bodyHalf body (o + 8) = p.rampTarget ∧ bodyHalf body (o + 10) = p.rampTime ∧
      bodyByte body (o + 12) = p.phaseMode.code ∧ bodyByte body (o + 13) = p.dcMode.code := by
  obtain ⟨amplitude, angle, -, frequency, rampTarget, rampTime⟩ := r
  have phase := p.phaseMode.code_le
  have dc := p.dcMode.code_le
  simp only [ChannelPart.bytes, standsAt_append, List.length_append, leBytes_length, and_assoc] at h
  obtain ⟨h0, h2, h4, h8, h10, h12, h13⟩ := h
  exact ⟨bodyHalf_of_standsAt h0 (by omega), bodyHalf_of_standsAt h2 (by omega), bodyWord_of_standsAt h4 (by omega),
    bodyHalf_of_standsAt h8 (by omega), bodyHalf_of_standsAt h10 (by omega), bodyByte_of_standsAt h12 (by omega),
    bodyByte_of_standsAt h13 (by omega)⟩

theorem channel_of_standsAt {p : ChannelPart} {ch : Fin 8} (h : standsAt body (3 + 14 * ch.val) p.bytes)
    (r : p.InRange) :
    ReadsBack (readChannel body ch) p (channelCodesOk body ch = true) (channelClamped body ch) := by
  obtain ⟨h0, h2, h4, h8, h10, h12, h13⟩ := ChannelPart.fields_of_standsAt h r
  obtain ⟨amplitude, angle, frequency, frequencyTop, rampTarget, rampTime⟩ := r
  refine ⟨?read, (channelCodesOk_iff body ch).2 ?codes, ?unclamped⟩
  case read =>
    have bounded : (if p.frequency = 0 then 0 else max 5000 (min 1000000 p.frequency)) = p.frequency := by
      split <;> omega
    simp only [readChannel_eq, channelGiven, h0, h2, h4, h8, h10, h12, h13, bounded, Nat.min_eq_right amplitude,
      Nat.mod_eq_of_lt angle, Nat.min_eq_right rampTarget, Nat.min_eq_right rampTime, ← PhaseMode.ofCode_getD,
      ← DcMode.ofCode_getD, PhaseMode.ofCode_code, DcMode.ofCode_code, Option.getD_some]
  case codes =>
    rw [show 15 + 14 * ch.val = 3 + 14 * ch.val + 12 by omega, show 16 + 14 * ch.val = 3 + 14 * ch.val + 13 by omega,
      h12, h13]
    exact ⟨p.phaseMode.code_le, p.dcMode.code_le⟩
  case unclamped =>
    rw [Bool.eq_false_iff, ne_eq, channelClamped_iff]
    dsimp only
    omega

/-- What R135 and R136 ask of the five bytes of a trigger (R204). -/
def triggerFits (body : List Byte) (o : Nat) : Prop :=
  let b (k : Nat) := bodyByte body (o + k)
  b 0 ≤ 6 ∧ (b 0 = 0 → bodyWord body (o + 1) ≤ 4000000000) ∧ (b 0 = 1 → b 1 ≤ 12 ∧ b 2 ≤ 1) ∧ (b 0 = 4 → b 1 ≤ 8) ∧
    (b 0 = 5 → b 1 ≤ 3) ∧ (b 0 = 6 → b 1 ≤ 15)

/-- The bytes of a trigger are read as the trigger, and pass the checks with nothing out of range. -/
theorem trigger_of_standsAt {x : Trigger} (h : standsAt body o x.bytes) (r : x.InRange) :
    readTrigger body o = x ∧ triggerFits body o := by
  simp only [triggerFits, Nat.add_zero]
  cases x with
  | after t =>
    have top := r t rfl
    obtain ⟨kind, time⟩ := h
    have h0 : bodyByte body o = 0 := kind
    have word := bodyWord_of_standsAt time (by omega)
    exact ⟨by rw [readTrigger_after body h0, word, Nat.min_eq_right top], by omega⟩
  | edge i d =>
    have hd := d.code_le
    obtain ⟨kind, input, direction, -⟩ := h
    have h0 : bodyByte body o = 1 := kind
    have h1 : bodyByte body (o + 1) = i.val := input.trans (Nat.mod_eq_of_lt (by omega))
    have h2 : bodyByte body (o + 2) = d.code := direction.trans (Nat.mod_eq_of_lt (by omega))
    exact ⟨by rw [readTrigger_edge h0 h1, h2, directionGiven_code], by omega⟩
  | sync =>
    have h0 : bodyByte body o = 2 := h.1
    exact ⟨readTrigger_sync h0, by omega⟩
  | go =>
    have h0 : bodyByte body o = 3 := h.1
    exact ⟨readTrigger_go h0, by omega⟩
  | breaker v =>
    have hv := v.code_le
    obtain ⟨kind, event, -⟩ := h
    have h0 : bodyByte body o = 4 := kind
    have h1 : bodyByte body (o + 1) = v.code := event.trans (Nat.mod_eq_of_lt (by omega))
    exact ⟨readTrigger_breaker h0 h1, by omega⟩
  | count c =>
    obtain ⟨kind, counter, -⟩ := h
    have h0 : bodyByte body o = 5 := kind
    have h1 : bodyByte body (o + 1) = c.val := counter.trans (Nat.mod_eq_of_lt (by omega))
    exact ⟨readTrigger_count h0 h1, by omega⟩
  | mark m =>
    obtain ⟨kind, mark, -⟩ := h
    have h0 : bodyByte body o = 6 := kind
    have h1 : bodyByte body (o + 1) = m.val := mark.trans (Nat.mod_eq_of_lt (by omega))
    exact ⟨readTrigger_mark h0 h1, by omega⟩

/-- The byte of a target is read as the target, and names a state of the table or FINISH. -/
theorem target_of_standsAt {x : Target} (h : standsAt body o (byteOf x.code)) :
    readTarget (byteAt body o) = x ∧ (bodyByte body o ≤ 23 ∨ bodyByte body o = 255) := by
  cases x with
  | state n =>
    have index := bodyByte_of_standsAt h (Nat.lt_trans n.isLt (by decide))
    exact ⟨readTarget_state index, .inl (index.trans_le (Nat.le_of_lt_succ n.isLt))⟩
  | finish =>
    have code := bodyByte_of_standsAt h (by decide)
    exact ⟨readTarget_finish code, .inr code⟩

/-- The two bytes of a mark action are read as the action, and pass the checks (R135, R204). -/
theorem action_of_standsAt {x : Option MarkAction} (h : standsAt body o (actionBytes x)) :
    readAction (byteAt body o) (byteAt body (o + 1)) = x ∧ bodyByte body o ≤ 2 ∧
      (bodyByte body o ≠ 0 → bodyByte body (o + 1) ≤ 15) := by
  have marked {code : Nat} {m : Fin 16} (hc : code ≤ 2) (h : standsAt body o (byteOf code ++ byteOf m.val)) :
      bodyByte body o = code ∧ bodyByte body (o + 1) = m.val :=
    ⟨h.1.trans (Nat.mod_eq_of_lt (by omega)), h.2.1.trans (Nat.mod_eq_of_lt (by omega))⟩
  rcases x with _ | m | m
  · exact ⟨readAction_none h.1, h.1.trans_le (by decide), fun e => absurd h.1 e⟩
  · obtain ⟨code, mark⟩ := marked (by decide) h
    exact ⟨readAction_set code mark, by omega, by omega⟩
  · obtain ⟨code, mark⟩ := marked (by decide) h
    exact ⟨readAction_clear code mark, by omega, by omega⟩

theorem exit_of_standsAt {x : Exit} {n : Nat} (h : standsAt body (133 + 8 * n) x.bytes) (r : x.trigger.InRange) :
    ReadsBack (readExit body n) x (exitCodesOk body n = true ∧ exitRefsOk body n = true) (exitClamped body n) := by
  rw [Exit.bytes_eq, standsAt_append, standsAt_append, List.length_append, Trigger.bytes_length] at h
  obtain ⟨⟨trigger, target⟩, action⟩ := h
  obtain ⟨readsTrigger, kind, time, edge, breaker, count, mark⟩ := trigger_of_standsAt trigger r
  obtain ⟨readsTarget, h5⟩ := target_of_standsAt target
  obtain ⟨readsAction, h6, h7⟩ := action_of_standsAt action
  refine ⟨?read, (exitOk_iff body n).2 ⟨kind, edge, breaker, count, mark, h5, h6, h7⟩, ?unclamped⟩
  case read => exact (Exit.mk.injEq ..).mpr ⟨readsTrigger, readsTarget, readsAction⟩
  case unclamped =>
    rw [Bool.eq_false_iff, ne_eq, exitClamped_iff]
    rintro ⟨h0, above⟩
    have within := time h0
    rw [show 133 + 8 * n + 1 = 134 + 8 * n by omega] at within
    omega

/-- The bytes of an item's subject are read as the subject, and pass the checks (R135, R204). -/
theorem subject_of_standsAt {x : Subject} (h : standsAt body o x.bytes) :
    readSubject body o = x ∧ bodyByte body o ≤ 2 ∧
      (bodyByte body o = 0 → bodyByte body (o + 1) ≤ 12 ∧ bodyByte body (o + 2) ≤ 1) := by
  cases x with
  | edge i d =>
    have hd := d.code_le
    obtain ⟨kind, input, direction, -⟩ := h
    have h1 : bodyByte body (o + 1) = i.val := input.trans (Nat.mod_eq_of_lt (by omega))
    have h2 : bodyByte body (o + 2) = d.code := direction.trans (Nat.mod_eq_of_lt (by omega))
    exact ⟨by rw [readSubject_edge kind h1, h2, directionGiven_code], kind.trans_le (by decide), by omega⟩
  | anyOpen => exact ⟨readSubject_anyOpen h.1, h.1.trans_le (by decide), fun e => absurd (h.1.symm.trans e) (by decide)⟩
  | allClosed =>
    exact ⟨readSubject_allClosed h.1, h.1.trans_le (by decide), fun e => absurd (h.1.symm.trans e) (by decide)⟩

theorem item_of_standsAt {x : Item} {n : Nat} (h : standsAt body (133 + 8 * bodyByte body 1 + 12 * n) x.bytes)
    (r : x.InRange) :
    ReadsBack (readItem body n) x
      (itemCodesOk body n = true ∧ itemRefsOk body n = true ∧ itemWindowOk body n = true) (itemClamped body n) := by
  obtain ⟨ordered, top⟩ := r
  have kindCode := x.kind.code_le
  simp only [Item.bytes_eq, standsAt_append, List.length_append, Subject.bytes_length, leBytes_length, byteOf_length,
    and_assoc, Nat.reduceAdd] at h
  obtain ⟨subject, kind, lo, hi⟩ := h
  have h3 := bodyByte_of_standsAt kind (by omega)
  have h4 := bodyWord_of_standsAt lo (by omega)
  have h8 := bodyWord_of_standsAt hi (by omega)
  obtain ⟨named, h0, edge⟩ := subject_of_standsAt subject
  refine ⟨?read, (itemOk_iff body n).2 ⟨h0, edge, h3.trans_le kindCode, ?window⟩, ?unclamped⟩
  case read =>
    obtain ⟨-, -, -, kindGiven, loGiven, hiGiven⟩ := itemGiven_readItem body n
    simp only [h3, ← ItemKind.ofCode_getD, ItemKind.ofCode_code, Option.getD_some] at kindGiven
    rw [h4, Nat.min_eq_right (ordered.trans top)] at loGiven
    rw [h8, Nat.min_eq_right top] at hiGiven
    exact (Item.mk.injEq ..).mpr ⟨named, kindGiven, loGiven, hiGiven⟩
  case window => exact (h4.trans_le ordered).trans_eq h8.symm
  case unclamped =>
    rw [Bool.eq_false_iff, ne_eq, itemClamped_iff]
    dsimp only
    omega

/-- The two bytes of a counter load are read as the load, and their presence byte passes its check (R204). -/
theorem load_of_standsAt {x : Option Nat} {c : Fin 4} (h : standsAt body (125 + 2 * c.val) (loadBytes x))
    (r : ∀ v, x = some v → v < 256) : readLoad body c = x ∧ bodyByte body (125 + 2 * c.val) ≤ 1 := by
  rw [readLoad_eq]
  cases x with
  | none =>
    have absent : bodyByte body (125 + 2 * c.val) = 0 := h.1
    simp [absent]
  | some v =>
    obtain ⟨presence, value⟩ := h
    have present : bodyByte body (125 + 2 * c.val) = 1 := presence
    have h1 : bodyByte body (126 + 2 * c.val) = v := by
      rw [show 126 + 2 * c.val = 125 + 2 * c.val + 1 by omega]
      exact bodyByte_of_standsAt value (r v rfl)
    simp [present, h1]

end

/-! ## The body of an entry -/

/-- The parts of an entry stand in a body at the offsets of R204. -/
structure LaidOut (body : List Byte) (index : Byte) (e : Entry) : Prop where
  length : body.length = 133 + 8 * e.exits.length + 12 * e.items.length
  index : byteAt body 0 = index
  exitCount : bodyByte body 1 = e.exits.length
  itemCount : bodyByte body 2 = e.items.length
  channels : ∀ ch : Fin 8, standsAt body (3 + 14 * ch.val) e.channels[ch].bytes
  decay : bodyHalf body 115 = e.decay
  guard : bodyWord body 117 = e.guard
  inception : standsAt body 121 (inceptionBytes e.inception)
  pattern : byteAt body 124 = e.pattern
  loads : ∀ c : Fin 4, standsAt body (125 + 2 * c.val) (loadBytes e.loads[c])
  exits : ∀ n (hn : n < e.exits.length), standsAt body (133 + 8 * n) e.exits[n].bytes
  items : ∀ n (hn : n < e.items.length), standsAt body (133 + 8 * e.exits.length + 12 * n) e.items[n].bytes

theorem flatten_length_of_width {α : Type} {f : α → List Byte} {w : Nat} (width : ∀ x, (f x).length = w) (l : List α) :
    (l.map f).flatten.length = w * l.length := by
  simp [List.length_flatten, Function.comp_def, width, Nat.mul_comm]

theorem Entry.bytes_eq (index : Byte) (e : Entry) :
    e.bytes index =
      [index] ++ (byteOf e.exits.length ++ (byteOf e.items.length ++
        ((e.channels.toList.map ChannelPart.bytes).flatten ++ (leBytes 2 e.decay ++ (leBytes 4 e.guard ++
          (inceptionBytes e.inception ++ ([e.pattern] ++ ((e.loads.toList.map loadBytes).flatten ++
            ((e.exits.map Exit.bytes).flatten ++ (e.items.map Item.bytes).flatten))))))))) := by
  rcases e with ⟨channels, decay, guard, _ | _, pattern, loads, exits, items⟩ <;>
    simp only [Entry.bytes, inceptionBytes, List.append_assoc]

theorem Entry.bytes_length (index : Byte) (e : Entry) :
    (e.bytes index).length = 133 + 8 * e.exits.length + 12 * e.items.length := by
  simp only [Entry.bytes_eq, List.length_append, List.length_singleton, byteOf_length, leBytes_length,
    inceptionBytes_length, flatten_length_of_width ChannelPart.bytes_length, flatten_length_of_width loadBytes_length,
    flatten_length_of_width Exit.bytes_length, flatten_length_of_width Item.bytes_length, Vector.length_toList]
  omega

theorem Entry.bytes_laidOut {e : Entry} (r : e.InRange) (index : Byte) : LaidOut (e.bytes index) index e := by
  have hx := r.exitCount
  have hi := r.itemCount
  have hg := r.guard
  have whole := standsAt_whole (Entry.bytes_eq index e)
  simp only [standsAt_append, List.length_singleton, byteOf_length, leBytes_length, inceptionBytes_length,
    flatten_length_of_width ChannelPart.bytes_length, flatten_length_of_width loadBytes_length,
    flatten_length_of_width Exit.bytes_length, Vector.length_toList, Nat.reduceAdd, Nat.reduceMul] at whole
  obtain ⟨⟨first, -⟩, exitCount, itemCount, channels, decay, guard, inception, ⟨pattern, -⟩, loads, exits, items⟩ :=
    whole
  exact {
    length := Entry.bytes_length index e
    index := BitVec.eq_of_toNat_eq first
    exitCount := bodyByte_of_standsAt exitCount (by omega)
    itemCount := bodyByte_of_standsAt itemCount (by omega)
    channels := fun ch => standsAt_flatten ChannelPart.bytes_length channels (by simp)
    decay := bodyHalf_of_standsAt decay r.decay
    guard := bodyWord_of_standsAt guard (by omega)
    inception := inception
    pattern := BitVec.eq_of_toNat_eq pattern
    loads := fun c => standsAt_flatten loadBytes_length loads (by simp)
    exits := fun n => standsAt_flatten Exit.bytes_length exits
    items := fun n => standsAt_flatten Item.bytes_length items }

section
variable {body : List Byte} {index : Byte} {e : Entry} (laid : LaidOut body index e) (r : e.InRange)
include laid r

theorem LaidOut.channel (ch : Fin 8) :
    ReadsBack (readChannel body ch) e.channels[ch] (channelCodesOk body ch = true) (channelClamped body ch) :=
  channel_of_standsAt (laid.channels ch) (r.channels ch)

theorem LaidOut.exit {n : Nat} (hn : n < e.exits.length) :
    ReadsBack (readExit body n) e.exits[n] (exitCodesOk body n = true ∧ exitRefsOk body n = true)
      (exitClamped body n) :=
  exit_of_standsAt (laid.exits n hn) (r.exits _ (List.getElem_mem hn))

theorem LaidOut.item {n : Nat} (hn : n < e.items.length) :
    ReadsBack (readItem body n) e.items[n]
      (itemCodesOk body n = true ∧ itemRefsOk body n = true ∧ itemWindowOk body n = true) (itemClamped body n) := by
  refine item_of_standsAt ?_ (r.items _ (List.getElem_mem hn))
  rw [laid.exitCount]
  exact laid.items n hn

theorem LaidOut.load (c : Fin 4) : readLoad body c = e.loads[c] ∧ bodyByte body (125 + 2 * c.val) ≤ 1 :=
  load_of_standsAt (laid.loads c) (r.loads c)

/-- The presence byte of the inception passes its check, and the angle is the entry's. -/
theorem LaidOut.inceptionRead :
    (if bodyByte body 121 = 1 then some (bodyHalf body 122 % 36000) else none) = e.inception ∧
      bodyByte body 121 ≤ 1 ∧ (bodyByte body 121 = 1 → bodyHalf body 122 < 36000) := by
  have stands := laid.inception
  have range := r.inception
  cases given : e.inception with
  | none =>
    rw [given] at stands
    have absent : bodyByte body 121 = 0 := stands.1
    simp [absent]
  | some a =>
    rw [given] at stands
    obtain ⟨presence, angle⟩ := stands
    have present : bodyByte body 121 = 1 := presence
    have below := range a given
    have half : bodyHalf body 122 = a := bodyHalf_of_standsAt angle (by omega)
    simp [present, half, below, Nat.mod_eq_of_lt below]

theorem LaidOut.readEntry_eq : readEntry body = e := by
  obtain ⟨-, decay, guard, inception, -, -, exitCount, itemCount, -, -⟩ := readEntry_given body
  refine (Entry.mk.injEq ..).mpr ⟨?channels, decay.trans laid.decay, ?guard, ?inception, laid.pattern, ?loads,
    ?exits, ?items⟩
  case channels => exact Vector.ext fun n hn => (Vector.getElem_ofFn hn).trans (laid.channel r ⟨n, hn⟩).same
  case guard =>
    rw [laid.guard, Nat.min_eq_right r.guard] at guard
    exact guard
  case inception => exact inception.trans (laid.inceptionRead r).1
  case loads => exact Vector.ext fun n hn => (Vector.getElem_ofFn hn).trans (laid.load r ⟨n, hn⟩).1
  case exits =>
    refine List.ext_getElem (exitCount.trans laid.exitCount) fun n _ hn => ?_
    rw [List.getElem_map, List.getElem_range]
    exact (laid.exit r hn).same
  case items =>
    refine List.ext_getElem (itemCount.trans laid.itemCount) fun n _ hn => ?_
    rw [List.getElem_map, List.getElem_range]
    exact (laid.item r hn).same

theorem LaidOut.checksOk (hi : index.toNat ≤ 23) : entryChecksOk body = true := by
  have exitCount := laid.exitCount
  have itemCount := laid.itemCount
  have fewExits := r.exitCount
  have fewItems := r.itemCount
  obtain ⟨-, presence, -⟩ := laid.inceptionRead r
  refine (entryChecksOk_iff body).2 ⟨?index, by omega, by omega, ?length, fun ch hch => ?channels,
    presence, fun c hc => (laid.load r ⟨c, hc⟩).2, fun n hn => ?exits, fun n hn => ?items⟩
  case index => rwa [← byteAt_toNat, laid.index]
  case length => rw [exitCount, itemCount, laid.length]
  case channels => exact (channelCodesOk_iff body ⟨ch, hch⟩).1 (laid.channel r ⟨ch, hch⟩).checks
  case exits => exact (exitOk_iff body n).1 (laid.exit r (exitCount ▸ hn)).checks
  case items => exact (itemOk_iff body n).1 (laid.item r (itemCount ▸ hn)).checks

theorem LaidOut.notClamped : entryClamped body = false := by
  refine Bool.eq_false_iff.2 fun clamped => ?_
  obtain ⟨ch, hch, beyond⟩ | beyond | ⟨present, beyond⟩ | ⟨n, hn, beyond⟩ | ⟨n, hn, beyond⟩ :=
    (entryClamped_iff body).1 clamped
  · exact Bool.eq_false_iff.1 (laid.channel r ⟨ch, hch⟩).unclamped ((channelClamped_iff body ⟨ch, hch⟩).2 beyond)
  · exact Nat.not_lt.2 r.guard (laid.guard ▸ beyond)
  · obtain ⟨-, -, angle⟩ := laid.inceptionRead r
    exact Nat.not_lt.2 beyond (angle present)
  · exact Bool.eq_false_iff.1 (laid.exit r (laid.exitCount ▸ hn)).unclamped ((exitClamped_iff body n).2 beyond)
  · exact Bool.eq_false_iff.1 (laid.item r (laid.itemCount ▸ hn)).unclamped ((itemClamped_iff body n).2 beyond)

end

/-- Settles O17: the entry read is in range, an entry in range stands in its body part by part, and each part that
stands there passes the checks and is read as it is. -/
theorem streadBodyWritesBack : Obligations.StreadBodyWritesBack := by
  intro body h back
  have index : (byteAt body 0).toNat ≤ 23 := ((entryChecksOk_iff body).1 h).1
  have inRange := readEntry_inRange h
  have laid : LaidOut back (byteAt body 0) (readEntry body) := Entry.bytes_laidOut inRange _
  have exits := inRange.exitCount
  have items := inRange.itemCount
  have length := laid.length
  exact ⟨by omega, by omega, laid.checksOk inRange index, laid.notClamped inRange, laid.index,
    laid.readEntry_eq inRange⟩

end Sys2Proof.Machine

/-! # STREAD and STCLEAR (R137, R138, R139) -/

namespace Sys2Proof.Machine

section
variable {index : Byte} {n : Fin 24}

theorem requestStread_range (h : 23 < index.toNat) (s : State) : requestStread index s = refuse .range s := by
  rw [requestStread, (entryOfCode_none index).2 h]

theorem requestStread_empty (h : index.toNat = n.val) {s : State} (empty : s.st.entries[n] = none) :
    requestStread index s = refuse .empty s := by
  simp only [requestStread, entryOfCode_some index n h, empty]

theorem requestStread_ready (h : index.toNat = n.val) {s : State} {e : Entry} (ready : s.st.entries[n] = some e) :
    requestStread index s = carried .ok (e.bytes index) s := by
  simp only [requestStread, entryOfCode_some index n h, ready]

theorem requestStclear_range (h : 23 < index.toNat) (s : State) : requestStclear index s = refuse .range s := by
  rw [requestStclear, (entryOfCode_none index).2 h]

theorem requestStclear_named (h : index.toNat = n.val) (s : State) :
    requestStclear index s =
      if entryInUse n s.sq then refuse .active s else carried .ok [] (putEntry n none s) := by
  simp only [requestStclear, entryOfCode_some index n h]

end

/-! ## The entries in use (R139) -/

section
variable {n : Fin 24} {q : Sequencer}

theorem entryInUse_idle (h : q.state = .idle) : entryInUse n q = false := by
  simp only [entryInUse, h]

theorem entryInUse_waiting (h : q.state = .armed ∨ q.state = .gap) {r : RunSettings} (hr : q.settings = some r) :
    entryInUse n q = true ↔ r.first = n := by
  rcases h with h | h <;> simp only [entryInUse, h, hr, decide_eq_true_eq]

theorem entryInUse_visiting (h : q.state = .running ∨ q.state = .pointing) :
    entryInUse n q = true ↔ q.current = some n ∨ ∃ x, q.taken = some x ∧ x.target = .state n := by
  cases taken : q.taken with
  | none => rcases h with h | h <;> simp [entryInUse, h, taken]
  | some x => rcases h with h | h <;> simp [entryInUse, h, taken]

end

/-- Settles O18: STREAD and STCLEAR by what their requests come to, then the entries in use by the sequencer's state. -/
theorem streadAndStclearServeTheTable : Obligations.StreadAndStclearServeTheTable := by
  refine ⟨fun tag index s listens => ?_, fun n q =>
    ⟨entryInUse_idle, fun h r => entryInUse_waiting h, entryInUse_visiting⟩⟩
  intro read clear
  rw [exec_requestOf rfl, exec_requestOf rfl]
  refine ⟨fun above => ⟨?readRange, ?clearRange⟩, fun n named =>
    ⟨fun empty => ?empty, fun e ready => ?ready, fun used => ?active, fun unused => ?cleared⟩⟩
  case readRange => exact act_refuse listens fun x => requestStread_range above (putCl x s)
  case clearRange => exact act_refuse listens fun x => requestStclear_range above (putCl x s)
  case empty => exact act_refuse listens fun x => requestStread_empty (s := putCl x s) named empty
  case ready => exact act_answer listens (fun x => requestStread_ready (s := putCl x s) named ready) rfl
  case active =>
    exact act_refuse listens fun x => (requestStclear_named named (putCl x s)).trans (if_pos used)
  case cleared =>
    exact act_answer (t := putEntry n none s) listens
      (fun x => (requestStclear_named named (putCl x s)).trans (if_neg (Bool.eq_false_iff.1 unused))) rfl

end Sys2Proof.Machine

/-! # CNTSET (R142, R143) -/

namespace Sys2Proof.Machine

/-- R142: the source that CNTSET's second and third bytes name. -/
def cntsetSource (source parameter : Byte) : CounterSource :=
  if source = 0 then .none else if source = 1 then .edge (Fin.ofNat 13 parameter.toNat)
  else if source = 2 then .tripAccepted else if source = 3 then .closeAccepted
  else .entry (Fin.ofNat 24 parameter.toNat)

/-- R142: the codes that CNTSET refuses with RANGE. -/
def cntsetOutOfRange (counter source parameter : Byte) : Prop :=
  3 < counter.toNat ∨ 4 < source.toNat ∨ (source = 1 ∧ (parameter = 0 ∨ 12 < parameter.toNat)) ∨
    (source = 4 ∧ 23 < parameter.toNat)

theorem counterSource_unnamed (code parameter : Nat) :
    CounterSource.ofCode code parameter = none ↔
      4 < code ∨ (code = 1 ∧ (parameter = 0 ∨ 12 < parameter)) ∨ (code = 4 ∧ 23 < parameter) := by
  rcases code with _ | _ | _ | _ | _ | n <;> simp [CounterSource.ofCode, imp_iff_not_or]

/-- A byte that names a number below n is the byte of that number. -/
theorem byteOf_finOfNat {n : Nat} [NeZero n] {b : Byte} (h : b.toNat < n) : byteOf (Fin.ofNat n b.toNat).val = [b] := by
  rw [Fin.val_ofNat, Nat.mod_eq_of_lt h, byteOf_toNat]

section
variable {counter source parameter : Byte}

theorem requestCntset_range (h : cntsetOutOfRange counter source parameter) (s : State) :
    requestCntset counter source parameter s = refuse .range s := by
  unfold requestCntset
  split
  · rfl
  · next inside =>
    have unnamed : CounterSource.ofCode source.toNat parameter.toNat = none := by
      rw [cntsetOutOfRange] at h
      rw [counterSource_unnamed]
      bv_omega
    rw [unnamed]

variable (h : ¬ cntsetOutOfRange counter source parameter)
include h

/-- Past the RANGE checks the two bytes name a source, whose code and parameter read back. -/
theorem cntsetSource_named :
    CounterSource.ofCode source.toNat parameter.toNat = some (cntsetSource source parameter) ∧
      byteOf (cntsetSource source parameter).code.1 ++ byteOf (cntsetSource source parameter).code.2 =
        [source, if source = 1 ∨ source = 4 then parameter else 0] := by
  simp only [cntsetOutOfRange, not_or, not_and] at h
  obtain ⟨-, named, edge, entry⟩ := h
  have five : source = 0 ∨ source = 1 ∨ source = 2 ∨ source = 3 ∨ source = 4 := by bv_omega
  obtain rfl | rfl | rfl | rfl | rfl := five
  · exact ⟨rfl, rfl⟩
  · obtain ⟨nonzero, top⟩ := edge rfl
    have range : 1 ≤ parameter.toNat ∧ parameter.toNat ≤ 12 := by bv_omega
    exact ⟨if_pos range, congrArg (1 :: ·) (byteOf_finOfNat (by omega))⟩
  · exact ⟨rfl, rfl⟩
  · exact ⟨rfl, rfl⟩
  · have range : parameter.toNat ≤ 23 := Nat.le_of_not_lt (entry rfl)
    exact ⟨if_pos range, congrArg (4 :: ·) (byteOf_finOfNat (by omega))⟩

/-- R142, past the RANGE checks: BUSY outside IDLE, else the source set. -/
theorem requestCntset_good (s : State) :
    requestCntset counter source parameter s =
      if s.sq.state ≠ .idle then refuse .busy s
      else
        let c := Fin.ofNat 4 counter.toNat
        let x := cntsetSource source parameter
        carried .ok (sourceReadback c x) (setSource c x s) := by
  have inside : ¬ 3 < counter.toNat := fun e => h (.inl e)
  obtain ⟨named, -⟩ := cntsetSource_named h
  simp only [requestCntset, if_neg inside, named]

end

/-- Settles O19: CNTSET refused by a code, refused outside IDLE, and carried out. -/
theorem cntsetSetsOneSource : Obligations.CntsetSetsOneSource := by
  intro tag counter source parameter s listens h bad x
  rw [exec_requestOf rfl]
  refine ⟨fun hb => ?range, fun hb hs => ?busy, fun c hc hb hs => ?done⟩
  case range => exact act_refuse listens fun y => requestCntset_range hb (putCl y s)
  case busy => exact act_refuse listens fun y => (requestCntset_good hb (putCl y s)).trans (if_pos hs)
  case done =>
    have counted : Fin.ofNat 4 counter.toNat = c := by rw [hc]; exact Fin.ofNat_val_eq_self c
    have readback : sourceReadback c x = [counter, source, if source = 1 ∨ source = 4 then parameter else 0] := by
      rw [sourceReadback, List.append_assoc, ← hc, byteOf_toNat]
      exact congrArg (counter :: ·) (cntsetSource_named hb).2
    rw [← readback]
    refine act_answer (t := setSource c x s) listens (fun y => ?_) rfl
    exact counted ▸ (requestCntset_good hb (putCl y s)).trans (if_neg (not_not_intro hs))

end Sys2Proof.Machine

/-! # The gap end (R170) -/

namespace Sys2Proof.Machine

theorem twoFree_iff (s : State) : 2 ≤ s.freePlaces ↔ s.rs.records.length ≤ 638 := by
  have places : s.freePlaces = 640 - s.rs.records.length := rfl
  omega

theorem bothReady_iff (s : State) : bothReady s = true ↔ s.al.v.state = .ready ∧ s.al.i.state = .ready := by
  simp [bothReady]

/-- R170: what lets the next run of the chain start. -/
theorem chainGoesOn_iff (s : State) :
    (2 ≤ s.freePlaces ∧ bothReady s = true) ↔
      s.rs.records.length ≤ 638 ∧ s.al.v.state = .ready ∧ s.al.i.state = .ready := by
  rw [twoFree_iff, bothReady_iff]

/-- Settles O50: the gap end is due, and the store and the groups decide. -/
theorem gapEndStartsOrEndsTheChain : Obligations.GapEndStartsOrEndsTheChain := by
  intro e s released gap ends reached go
  rw [exec_due (b := gapEndDue s) released rfl ((gapEndDue_iff s).2 ⟨gap, e, ends, reached⟩)]
  refine ⟨fun starts => ?start, fun stops => ?stop⟩
  case start => rw [show gapEnd s = startRun s.count false s from if_pos ((chainGoesOn_iff s).2 starts)]
  case stop => rw [show gapEnd s = waitEnded s from if_neg (mt (chainGoesOn_iff s).1 stops)]

end Sys2Proof.Machine

/-! # RUN (R146, R147) -/

namespace Sys2Proof.Machine

/-- The step of a request taken at once, by what it comes to. -/
theorem exec_carriedOut {c : Instr} {h : HeldRequest} {s t : State} {reply : Reply} (e : requestOf c = some h)
    (l : listening s) (done : carryOut h.request (putCl { s.cl with inService := some h } s) = (reply, t)) :
    exec c s = .next (settle (pushAnswer (serviceAnswer h reply) t)) := by
  rw [exec_requestOf e, act_submit l, done]

/-! ## The codes of RUN -/

theorem RunMode.ofCode_isSome (n : Nat) : (RunMode.ofCode n).isSome = true ↔ n ≤ 2 := by
  rcases n with _ | _ | _ | n <;> simp [RunMode.ofCode]

theorem RunTrigger.ofCode_isSome (n : Nat) : (RunTrigger.ofCode n).isSome = true ↔ n ≤ 3 := by
  rcases n with _ | _ | _ | _ | n <;> simp [RunTrigger.ofCode]

theorem OverloadAction.ofCode_isSome (n : Nat) : (OverloadAction.ofCode n).isSome = true ↔ n ≤ 1 := by
  rcases n with _ | _ | n <;> simp [OverloadAction.ofCode]

theorem RunMode.ofCode_triggered (b : Byte) : RunMode.ofCode b.toNat = some .triggered ↔ b = 2 := by
  revert b; decide

theorem RunTrigger.ofCode_immediate (b : Byte) : RunTrigger.ofCode b.toNat = some .immediate ↔ b = 0 := by
  revert b; decide

theorem RunTrigger.ofCode_atSecond (b : Byte) : RunTrigger.ofCode b.toNat = some .atSecond ↔ b = 3 := by
  revert b; decide

theorem triggerAllowed_iff (m : RunMode) (t : RunTrigger) :
    triggerAllowed m t = true ↔ ¬ (m = .triggered ∧ (t = .atSecond ∨ t = .immediate)) := by
  simp only [triggerAllowed, Bool.or_eq_true, Bool.and_eq_true, decide_eq_true_eq, not_and_or, not_or, ne_eq]

theorem entryOfCode_eq_some {b : Byte} {n : Fin 24} :
    entryOfCode b = some n ↔ b.toNat ≤ 23 ∧ n = Fin.ofNat 24 b.toNat := by
  simp [entryOfCode, eq_comm]

/-- R146, checks 1 to 3: the codes, the index and the combination that RUN accepts. -/
def runFormed (mode trigger first action : Byte) : Prop :=
  mode.toNat ≤ 2 ∧ trigger.toNat ≤ 3 ∧ action.toNat ≤ 1 ∧ first.toNat ≤ 23 ∧
    ¬ (mode = 2 ∧ (trigger = 3 ∨ trigger = 0))

section
variable {mode trigger first action : Byte}

theorem runFormed_iff :
    runFormed mode trigger first action ↔
      ∃ m t a n, RunMode.ofCode mode.toNat = some m ∧ RunTrigger.ofCode trigger.toNat = some t ∧
        OverloadAction.ofCode action.toNat = some a ∧ entryOfCode first = some n ∧ triggerAllowed m t = true := by
  have combined {m : RunMode} {t : RunTrigger} (hm : RunMode.ofCode mode.toNat = some m)
      (ht : RunTrigger.ofCode trigger.toNat = some t) :
      triggerAllowed m t = true ↔ ¬ (mode = 2 ∧ (trigger = 3 ∨ trigger = 0)) := by
    simp only [triggerAllowed_iff, ← RunMode.ofCode_triggered, ← RunTrigger.ofCode_immediate,
      ← RunTrigger.ofCode_atSecond, hm, ht, Option.some.injEq]
  constructor
  · rintro ⟨modeIn, triggerIn, actionIn, firstIn, allowed⟩
    obtain ⟨m, hm⟩ := Option.isSome_iff_exists.1 ((RunMode.ofCode_isSome _).2 modeIn)
    obtain ⟨t, ht⟩ := Option.isSome_iff_exists.1 ((RunTrigger.ofCode_isSome _).2 triggerIn)
    obtain ⟨a, ha⟩ := Option.isSome_iff_exists.1 ((OverloadAction.ofCode_isSome _).2 actionIn)
    exact ⟨m, t, a, _, hm, ht, ha, entryOfCode_eq_some.2 ⟨firstIn, rfl⟩, (combined hm ht).2 allowed⟩
  · rintro ⟨m, t, a, n, hm, ht, ha, hn, allowed⟩
    refine ⟨(RunMode.ofCode_isSome _).1 ?_, (RunTrigger.ofCode_isSome _).1 ?_, (OverloadAction.ofCode_isSome _).1 ?_,
      (entryOfCode_eq_some.1 hn).1, (combined hm ht).1 allowed⟩
    · rw [hm]; rfl
    · rw [ht]; rfl
    · rw [ha]; rfl

end

/-! ## Checks 4 to 9 (R146) -/

section
variable {r : RunSettings} {n : Fin 24} {s : State} (named : r.first = n)
include named

theorem runRefusal_eq :
    runRefusal r s =
      if s.sq.state ≠ .idle then some .busy
      else if ¬ (s.al.v.state = .ready ∧ s.al.i.state = .ready) then some .notReady
      else if s.st.entries[n] = none then some .empty
      else if 638 < s.rs.records.length then some .noRoom
      else if r.trigger = .atSecond ∧ s.tb.epoch = false then some .noTime
      else if r.trigger = .atSecond ∧ r.second ≤ s.tb.second then some .range
      else none := by
  subst named
  have unready : bothReady s = false ↔ ¬ (s.al.v.state = .ready ∧ s.al.i.state = .ready) := by
    rw [← bothReady_iff, Bool.not_eq_true]
  have full : s.freePlaces < 2 ↔ 638 < s.rs.records.length := by
    rw [← Nat.not_le, twoFree_iff, Nat.not_le]
  simp only [runRefusal, unready, full, Option.isNone_iff_eq_none]

variable (idle : s.sq.state = .idle) (ready : s.al.v.state = .ready ∧ s.al.i.state = .ready)
include idle ready

theorem runRefusal_ready :
    runRefusal r s =
      if s.st.entries[n] = none then some .empty
      else if 638 < s.rs.records.length then some .noRoom
      else if r.trigger = .atSecond ∧ s.tb.epoch = false then some .noTime
      else if r.trigger = .atSecond ∧ r.second ≤ s.tb.second then some .range
      else none := by
  rw [runRefusal_eq named, if_neg (not_not.2 idle), if_neg (not_not.2 ready)]

theorem runRefusal_room (stored : s.st.entries[n] ≠ none) (room : s.rs.records.length ≤ 638) :
    runRefusal r s =
      if r.trigger = .atSecond ∧ s.tb.epoch = false then some .noTime
      else if r.trigger = .atSecond ∧ r.second ≤ s.tb.second then some .range
      else none := by
  rw [runRefusal_ready named idle ready, if_neg stored, if_neg (Nat.not_lt.2 room)]

end

/-! ## The request -/

section
variable {mode trigger first action : Byte} {repeats : Half} {gap second frequency : Word}

theorem requestRun_unformed (h : ¬ runFormed mode trigger first action) (s : State) :
    requestRun mode repeats gap trigger second first frequency action s = refuse .range s := by
  unfold requestRun
  split
  · next m t a n hm ht ha hn =>
    exact if_pos (Bool.eq_false_iff.2 fun allowed => h (runFormed_iff.2 ⟨m, t, a, n, hm, ht, ha, hn, allowed⟩))
  · rfl

section
variable {m : RunMode} {t : RunTrigger} {a : OverloadAction} {n : Fin 24} (hm : RunMode.ofCode mode.toNat = some m)
  (ht : RunTrigger.ofCode trigger.toNat = some t) (ha : OverloadAction.ofCode action.toNat = some a)
  (hn : entryOfCode first = some n) (allowed : triggerAllowed m t = true) {s : State}
include hm ht ha hn allowed

theorem requestRun_refused {status : Status}
    (h : runRefusal (runSettings m repeats gap t second n frequency a) s = some status) :
    requestRun mode repeats gap trigger second first frequency action s = refuse status s := by
  simp only [requestRun, hm, ht, ha, hn, allowed, Bool.true_eq_false, if_false, h]

theorem requestRun_accepted (h : runRefusal (runSettings m repeats gap t second n frequency a) s = none) :
    requestRun mode repeats gap trigger second first frequency action s =
      let r := runSettings m repeats gap t second n frequency a
      carried (clampStatus (runClamped repeats gap frequency r)) (byteOf (acceptRun r s).sq.state.code)
        (acceptRun r s) := by
  simp only [requestRun, hm, ht, ha, hn, allowed, Bool.true_eq_false, if_false, h]

end

/-- Past checks 1 to 3 the remaining checks see the first state, the second and the trigger that the body names. -/
theorem requestRun_formed (h : runFormed mode trigger first action) :
    ∃ r : RunSettings, r.first = Fin.ofNat 24 first.toNat ∧ r.second = second.toNat ∧
      (trigger = 3 → r.trigger = .atSecond) ∧
      ∀ s status, runRefusal r s = some status →
        requestRun mode repeats gap trigger second first frequency action s = refuse status s := by
  obtain ⟨m, t, a, n, hm, ht, ha, hn, allowed⟩ := runFormed_iff.1 h
  refine ⟨runSettings m repeats gap t second n frequency a, (entryOfCode_eq_some.1 hn).2, rfl, fun h3 => ?_,
    fun s status => requestRun_refused hm ht ha hn allowed⟩
  exact Option.some.inj (ht.symm.trans ((RunTrigger.ofCode_atSecond trigger).2 h3))

end

/-- Settles O20: RANGE by a code, then each further check where the ones before it pass. -/
theorem runIsRefusedInOrder : Obligations.RunIsRefusedInOrder := by
  intro tag mode repeats gap trigger second first frequency action s listens c h n formed ready
  rw [exec_requestOf (h := h) rfl]
  have refused {status : Status} (hf : formed)
      (check : ∀ r : RunSettings, r.first = n → r.second = second.toNat → (trigger = 3 → r.trigger = .atSecond) →
        runRefusal r s = some status) : act (submit h) s = .next (answering h status [] s) := by
    obtain ⟨r, firstIs, secondIs, triggerIs, refuses⟩ := requestRun_formed (repeats := repeats) (gap := gap)
      (second := second) (frequency := frequency) hf
    exact act_refuse listens fun y => refuses (putCl y s) status (check r firstIs secondIs triggerIs)
  refine ⟨fun hf => ?range, fun hf busy => ?busy, fun hf idle unready => ?notReady,
    fun hf idle hr empty => ?empty, fun hf idle hr stored full => ?noRoom, fun hf idle hr stored room h3 =>
      ⟨fun untimed => ?noTime, fun timed past => ?past⟩⟩
  case range => exact act_refuse listens fun y => requestRun_unformed hf (putCl y s)
  case busy => exact refused hf fun r hn _ _ => by rw [runRefusal_eq hn, if_pos busy]
  case notReady =>
    exact refused hf fun r hn _ _ => by rw [runRefusal_eq hn, if_neg (not_not.2 idle), if_pos unready]
  case empty => exact refused hf fun r hn _ _ => by rw [runRefusal_ready hn idle hr, if_pos empty]
  case noRoom => exact refused hf fun r hn _ _ => by rw [runRefusal_ready hn idle hr, if_neg stored, if_pos full]
  case noTime =>
    exact refused hf fun r hn _ ht => by rw [runRefusal_room hn idle hr stored room, if_pos ⟨ht h3, untimed⟩]
  case past =>
    refine refused hf fun r hn hs ht => ?_
    rw [runRefusal_room hn idle hr stored room, if_neg (by simp [timed]), if_pos ⟨ht h3, hs ▸ past⟩]

/-! ## A RUN that passes its checks (R147) -/

theorem runClamped_iff (repeats : Half) (gap frequency : Word) (r : RunSettings) :
    runClamped repeats gap frequency r = true ↔
      ¬ (r.repeats = repeats.toNat ∧ r.gap = gap.toNat ∧ r.frequency = frequency.toNat) := by
  simp only [runClamped, Bool.or_eq_true, decide_eq_true_eq, ne_eq, not_and_or, or_assoc]

/-- R147: the settings and the remainder stored; the flag of a result found while armed is clear (R151; log 10). -/
def storeRun (r : RunSettings) (s : State) : State :=
  { s with sq := { s.sq with settings := some r, remainder := initialRemainder r, resultHeld := false } }

theorem acceptRun_immediate {r : RunSettings} (h : r.trigger = .immediate) (s : State) :
    acceptRun r s = startRun s.count false (storeRun r s) := if_pos h

theorem acceptRun_armed {r : RunSettings} (h : r.trigger ≠ .immediate) (s : State) :
    acceptRun r s = { storeRun r s with sq := { (storeRun r s).sq with state := .armed } } := if_neg h

/-- Settles O21: no check refuses the RUN; its trigger arms or starts it. -/
theorem runIsArmedOrStarted : Obligations.RunIsArmedOrStarted := by
  intro tag mode repeats gap trigger second first frequency action m t a s listens hm ht ha hf combination idle readyV
    readyI stored room timed c h n g f r status remainder
  have passes : runRefusal r s = none := by
    rw [runRefusal_room (n := Fin.ofNat 24 first.toNat) rfl idle ⟨readyV, readyI⟩ stored room, if_neg, if_neg]
    · rintro ⟨atSecond, past⟩
      exact Nat.not_lt.2 past (timed atSecond).2
    · rintro ⟨atSecond, untimed⟩
      exact Bool.eq_false_iff.1 untimed (timed atSecond).1
  have carriedOut (y : ControlLink) : carryOut h.request (putCl y s) =
      carried status (byteOf (acceptRun r (putCl y s)).sq.state.code) (acceptRun r (putCl y s)) := by
    have statusIs : clampStatus (runClamped repeats gap frequency r) = status :=
      clampStatus_of_iff (runClamped_iff repeats gap frequency r)
    rw [← statusIs]
    exact requestRun_accepted hm ht ha (entryOfCode_eq_some.2 ⟨hf, rfl⟩) ((triggerAllowed_iff m t).2 combination)
      passes
  have remainderIs : initialRemainder r = remainder := by cases m <;> rfl
  rw [← remainderIs]
  refine ⟨fun waits => act_answer (h := h) listens (fun y => ?armed) rfl,
    fun immediate => ?started⟩
  case armed => rw [carriedOut, acceptRun_armed waits]; rfl
  case started =>
    intro u v
    have done : carryOut h.request u = (⟨status, byteOf v.sq.state.code⟩, v) := by
      rw [carriedOut, acceptRun_immediate immediate]
      rfl
    have stepped := exec_carriedOut (c := c) rfl listens done
    exact stepped

end Sys2Proof.Machine

/-! # HALT and GO (R148, R150, R163, R164) -/

namespace Sys2Proof.Machine

theorem eventMatches_go : eventMatches .go (fun _ => false) = fun t => decide (t = .go) := by
  funext t
  cases t <;> simp [eventMatches]

section
variable {s : State}

theorem requestHalt_run (h : s.sq.state = .running ∨ s.sq.state = .pointing) :
    requestHalt s = carried .ok [] (runEnd .halted s) := by
  unfold requestHalt
  obtain h | h := h <;> rw [h]

theorem requestHalt_wait (h : s.sq.state = .armed ∨ s.sq.state = .gap) :
    requestHalt s = carried .ok [] (toIdle s) := by
  unfold requestHalt
  obtain h | h := h <;> rw [h]

theorem requestHalt_idle (h : s.sq.state = .idle) : requestHalt s = refuse .order s := by
  unfold requestHalt
  rw [h]

theorem requestGo_order (h : s.sq.state = .idle ∨ s.sq.state = .gap ∨ s.sq.state = .pointing) :
    requestGo s = refuse .order s := by
  unfold requestGo
  obtain h | h | h := h <;> rw [h]

theorem requestGo_running (h : s.sq.state = .running) :
    requestGo s = carried .ok [] (judgeEvent (fun t => decide (t = .go)) s.now s) := by
  unfold requestGo
  rw [h, eventMatches_go]

variable {r : RunSettings} (armed : s.sq.state = .armed) (stored : s.sq.settings = some r)
include armed stored

theorem requestGo_armed :
    requestGo s =
      if r.trigger ≠ .go then refuse .order s
      else if s.rs.records.length ≤ 638 then carried .ok [] (startRun s.count false s)
      else refuse .noRoom (waitEnded s) := by
  have awaits : s.sq.awaitsGo = false ↔ r.trigger ≠ .go := by simp [Sequencer.awaitsGo, stored]
  unfold requestGo
  simp only [armed, awaits, twoFree_iff]
  rfl

end

/-- Settles O22: a run ended, a wait ended, and IDLE. -/
theorem haltEndsTheRunOrTheWait : Obligations.HaltEndsTheRunOrTheWait := by
  intro tag s listens h
  refine ⟨fun inRun => ?run, fun waits => ?wait, fun idle => ?idle⟩
  case run =>
    let u := putCl { s.cl with inService := some h } s
    have done : carryOut h.request u = (⟨.ok, []⟩, runEnd .halted u) := requestHalt_run inRun
    have stepped := exec_carriedOut (c := .halt tag) rfl listens done
    exact stepped
  case wait => exact act_answer (h := h) listens (fun y => requestHalt_wait (s := putCl y s) waits) rfl
  case idle => exact act_refuse (h := h) listens fun y => requestHalt_idle (s := putCl y s) idle

/-- Settles O23: the states that refuse GO, the armed run by its trigger and the room, and the event of a run. -/
theorem goStartsOrIsDelivered : Obligations.GoStartsOrIsDelivered := by
  intro tag s listens h u
  have answered {reply : Reply} {t : State} (done : requestGo u = (reply, t)) :
      exec (.go tag) s = .next (settle (pushAnswer (serviceAnswer h reply) t)) := exec_carriedOut rfl listens done
  refine ⟨fun refusing => ?order, fun r armed stored => ?armed, fun running => ?event⟩
  case order => exact answered (requestGo_order refusing)
  case armed =>
    have judged := requestGo_armed (s := u) armed stored
    refine ⟨fun other => ?_, fun go room => ?_, fun go full => ?_⟩
    · exact answered (judged.trans (if_pos other))
    · exact answered (judged.trans ((if_neg (not_not.2 go)).trans (if_pos room)))
    · exact answered (judged.trans ((if_neg (not_not.2 go)).trans (if_neg (Nat.not_le.2 full))))
  case event => exact answered (requestGo_running running)

end Sys2Proof.Machine

/-! # Exits taken and events judged (R157, R159, R161) -/

namespace Sys2Proof.Machine

/-! ## The mark action -/

theorem markBit_get (k m : Fin 16) : (1#16 <<< k.val).getLsbD m.val = decide (m = k) := by
  revert k m
  decide

section
variable (marks : BitVec 16) (k m : Fin 16)

theorem markSet_get :
    (applyMarkAction (some (.set k)) marks).getLsbD m.val = (decide (m = k) || marks.getLsbD m.val) := by
  rw [applyMarkAction, BitVec.getLsbD_or, markBit_get, Bool.or_comm]

theorem markClear_get :
    (applyMarkAction (some (.clear k)) marks).getLsbD m.val = (decide (m ≠ k) && marks.getLsbD m.val) := by
  rw [applyMarkAction, BitVec.getLsbD_and, BitVec.getLsbD_not, markBit_get, decide_eq_true m.isLt, Bool.true_and,
    Bool.and_comm, decide_not]

end

/-! ## The taking of an exit -/

/-- R161: the exit has been taken, its mark action applied, the guard over; the sequencer is in `state`. -/
def leaveBy (i : Fin 6) (x : Exit) (time : Nat) (cause : Option Nat) (state : SeqState) (s : State) : State :=
  { s with sq := { s.sq with
    state := state, marks := applyMarkAction x.action s.sq.marks
    taken := some ⟨x.target, i, time, cause⟩, guard := none } }

section
variable (i : Fin 6) {x : Exit} (time : Nat) (cause : Option Nat) {s : State}

theorem takeExit_finish (hx : x.target = .finish) :
    takeExit i.val x time cause s = leaveBy i x time cause s.sq.state s := by
  simp only [takeExit, leaveBy, ofNat_six, hx]

theorem takeExit_ready {n : Fin 24} {e : Entry} (hx : x.target = .state n) (he : s.st.entries[n] = some e) :
    takeExit i.val x time cause s =
      leaveBy i x time cause (if e.inception.isSome then .pointing else s.sq.state) s := by
  simp only [takeExit, leaveBy, ofNat_six, hx, he]
  split <;> rfl

theorem takeExit_empty {n : Fin 24} (hx : x.target = .state n) (he : s.st.entries[n] = none) :
    takeExit i.val x time cause s = runEnd .table (leaveBy i x time cause s.sq.state s) := by
  simp only [takeExit, leaveBy, ofNat_six, hx, he]

/-- To END or a READY entry the run goes on, in RUNNING or POINTING. -/
theorem takeExit_goesOn (hr : s.sq.state = .running)
    (hx : x.target = .finish ∨ ∃ m e, x.target = .state m ∧ s.st.entries[m] = some e) :
    ∃ state, (state = .running ∨ state = .pointing) ∧
      takeExit i.val x time cause s = leaveBy i x time cause state s := by
  obtain finish | ⟨m, e, target, ready⟩ := hx
  · exact ⟨_, .inl hr, takeExit_finish i time cause finish⟩
  · refine ⟨_, ?_, takeExit_ready i time cause target ready⟩
    split
    · exact .inr rfl
    · exact .inl hr

end

/-! ## An event judged -/

section
variable {m : Trigger → Bool} {time : Nat} {s : State}

theorem judgeEvent_unjudged (h : ¬ (s.sq.state = .running ∧ s.sq.taken = none)) : judgeEvent m time s = s :=
  if_neg (mt (judges_iff s).1 h)

variable {n : Fin 24} {e : Entry} (hr : s.sq.state = .running) (ht : s.sq.taken = none)
  (hc : s.sq.current = some n) (he : s.st.entries[n] = some e)
include hr ht hc he

theorem judgeEvent_unmatched (hf : firstMatch m e.exits = none) : judgeEvent m time s = s := by
  obtain ⟨judges, entry⟩ := judgeSample_judges hr ht hc he
  simp only [judgeEvent, judges, if_true, entry, hf]

variable {i : Nat} {y : Exit} (hf : firstMatch m e.exits = some (y, i))
include hf

theorem judgeEvent_takes (hg : s.sq.guard = none) : judgeEvent m time s = takeExit i y time none s := by
  obtain ⟨judges, entry⟩ := judgeSample_judges hr ht hc he
  simp only [judgeEvent, judges, if_true, entry, hf, hg]

theorem judgeEvent_latches {g : Guard} (hg : s.sq.guard = some g) : judgeEvent m time s = latchExit g i time s := by
  obtain ⟨judges, entry⟩ := judgeSample_judges hr ht hc he
  simp only [judgeEvent, judges, if_true, entry, hf, hg]

end

end Sys2Proof.Machine

/-! # The entry that is due at a sample (R154, R161, R162; log 15) -/

namespace Sys2Proof.Machine

section
variable {s : State}

theorem entryDue_untaken (h : s.sq.taken = none) : entryDue s = none := by
  simp only [entryDue, h]

variable {x : TakenExit} {n : Fin 24} (ht : s.sq.taken = some x) (hx : x.target = .state n)
include ht hx

theorem entryDue_running (hr : s.sq.state = .running) : entryDue s = some n := by
  simp only [entryDue, ht, hx, hr, reduceCtorEq, if_false]

theorem entryDue_pointing (hp : s.sq.state = .pointing) :
    entryDue s = if pointReached s n then some n else none := by
  simp only [entryDue, ht, hx, hp, if_true]

end

theorem pointReached_iff {s : State} {n : Fin 24} {e : Entry} {angle : Nat} (he : s.st.entries[n] = some e)
    (ha : e.inception = some angle) :
    pointReached s n = true ↔
      (s.ws.r - BitVec.ofNat 32 (roundNat (angle * 2 ^ 32) 36000)).toNat < s.ws.dRef.toNat := by
  simp only [pointReached, he, ha]
  exact decide_eq_true_iff

theorem beginSample_due {s : State} {n : Fin 24} (h : entryDue s = some n) (t : Nat) :
    beginSample t s = enterState n t s := by
  simp only [beginSample, h]

theorem beginSample_notDue {s : State} (h : entryDue s = none) (t : Nat) : beginSample t s = s := by
  simp only [beginSample, h]

/-! ## The visits stand through the rest of the instant -/

theorem runEnd_visits (o : RunOutcome) (s : State) : (runEnd o s).sq.visits = s.sq.visits := by
  obtain ⟨_, _, _, h⟩ := runEnd_sq o s
  rw [h]

theorem takeExit_visits (i : Nat) (x : Exit) (t : Nat) (cause : Option Nat) (s : State) :
    (takeExit i x t cause s).sq.visits = s.sq.visits := by
  unfold takeExit
  dsimp only
  split
  · rfl
  · split
    · exact runEnd_visits _ _
    · split <;> rfl

theorem expireGuard_visits (e : Entry) (latch : Option Latch) (found : Option (Exit × Nat)) (t : Nat) (s : State) :
    (expireGuard e latch found t s).sq.visits = s.sq.visits := by
  unfold expireGuard
  dsimp only
  split
  · split
    · exact takeExit_visits _ _ _ _ _
    · rfl
  · split
    · split
      · exact takeExit_visits _ _ _ _ _
      · rfl
    · split
      · split <;> exact takeExit_visits _ _ _ _ _
      · exact takeExit_visits _ _ _ _ _

theorem judgeSample_visits (count : Nat) (events : List BreakerEvent) (s : State) :
    (judgeSample count events s).sq.visits = s.sq.visits := by
  unfold judgeSample
  dsimp only
  split
  · split
    · rfl
    · split
      · split
        · split <;> rfl
        · exact expireGuard_visits _ _ _ _ s
      · split
        · exact takeExit_visits _ _ _ _ s
        · rfl
  · rfl

theorem FrameEffect.visits {g : Group} {s t : State} (h : FrameEffect g s t) : t.sq.visits = s.sq.visits := by
  cases h with
  | sent rest => rw [rest.sq]
  | faulted rest run => rw [runEnd_visits, rest.sq]
  | stopped rest run =>
    have visits := congrArg Sequencer.visits rest.sq
    exact visits

theorem judgeSampleEvents_visits (count : Nat) (events : List BreakerEvent) (s : State) :
    (judgeSampleEvents count events s).sq.visits = s.sq.visits := by
  have assessed := congrArg Sequencer.visits (assessBreakerEvents_assessed events (s.runTimeAt count)
    (s.runTimeAt count) s).sq
  rw [judgeSampleEvents_sq]
  exact (judgeSample_visits _ _ _).trans assessed

theorem gridWork_visits (s : State) : (gridWork s).1.sq.visits = (beginSample s.now (takeGrid s)).sq.visits :=
  congrArg Sequencer.visits (computeSample_sampled _ _).sq

/-- After the entry at its beginning an instant counts no visit, whatever link it loses. -/
theorem gridInstant_visits {s : State} (h : sampleHere s) :
    (settle (gridInstant s)).sq.visits = (beginSample s.now (takeGrid s)).sq.visits := by
  have handed (done : State × Vector Int 8) : (handCodes done).sq = done.1.sq := rfl
  rw [(settle_parts _).1, gridInstant_sample h]
  dsimp only
  rw [(frameInstant_effect .i _ _).visits, (frameInstant_effect .v _ _).visits, handed, judgeSampleEvents_visits,
    gridWork_visits]

/-- An entry due at a sample is made at it, and counts a visit. -/
theorem gridInstant_enters {s : State} {n : Fin 24} {e : Entry} (h : sampleHere s) (due : entryDue s = some n)
    (he : s.st.entries[n] = some e) :
    (settle (gridInstant s)).sq.visits[n] = min 65535 (s.sq.visits[n] + 1) := by
  have begun : beginSample s.now (takeGrid s) = enterState n s.now (takeGrid s) :=
    beginSample_due (s := takeGrid s) due s.now
  have entered := congrArg Sequencer.visits (enterState_sq (t := s.now) (s := takeGrid s) he)
  simp only [gridInstant_visits h, begun, entered, Fin.getElem_fin, Vector.getElem_set_self]
  rfl

end Sys2Proof.Machine

/-! # A sample at which no state is entered (R112, R158, R162) -/

namespace Sys2Proof.Machine

/-! ## What the work of the sample leaves -/

theorem Sampled.entryTime {s t : State} (h : Sampled s t) : t.entryTime = s.entryTime := by
  simp only [State.entryTime, h.asmt]

/-- The state in which the set of the sample at this grid instant is judged (R114, R174). -/
def assessedWork (s : State) : State := assessBreakerEvents (gridWork s).2.2 s.now s.now (gridWork s).1

section
variable {s : State} (due : entryDue s = none)
include due

theorem judgedState_sampled : Sampled s (judgedState s) := by
  unfold judgedState
  rw [beginSample_notDue due]
  exact computeSample_sampled _ _

theorem gridWork_notDue : gridWork s = computeSample s.now (takeGrid s) := by
  have begun : beginSample s.now (takeGrid s) = takeGrid s := beginSample_notDue (s := takeGrid s) due s.now
  unfold gridWork
  rw [begun]

theorem gridWork_stands : Sampled (takeGrid s) (gridWork s).1 := by
  rw [gridWork_notDue due]
  exact computeSample_sampled _ _

theorem assessedWork_stands :
    (assessedWork s).sq = s.sq ∧ (assessedWork s).st = s.st ∧ (assessedWork s).entryTime = s.entryTime ∧
      ∀ count, (assessedWork s).runTimeAt count = s.runTimeAt count := by
  have work := gridWork_stands due
  have assessed : Assessed (gridWork s).1 (assessedWork s) := assessBreakerEvents_assessed _ _ _ _
  refine ⟨assessed.sq.trans work.sq, assessed.st.trans work.st,
    (assessBreakerEvents_entryTime _ _ _ _).trans work.entryTime, fun count => ?_⟩
  simp only [State.runTimeAt, assessed.tb, work.tb]
  rfl

/-- Where no link is lost, the sequencer stands after the instant as the judged set leaves it. -/
theorem gridInstant_judged (h : sampleHere s) (hv : spared s.al.v) (hi : spared s.al.i) :
    (settle (gridInstant s)).sq =
      { (judgeSample s.count (gridWork s).2.2 (assessedWork s)).sq with entrySample := false } := by
  have now : (gridWork s).1.runTimeAt s.count = s.now := (gridWork_stands due).runTimeAt s.count
  unfold assessedWork
  rw [gridInstant_sq h hv hi, judgeSampleEvents_sq, now]

end

/-! ## The AFTER exit whose time comes (R158) -/

section
variable {i : Fin 6} {n : Fin 24} {e : Entry} {x : Exit} {time : Nat} {s : State} (h : sampleHere s)
  (hr : s.sq.state = .running) (ht : s.sq.taken = none) (hc : s.sq.current = some n)
  (he : s.st.entries[n] = some e) (hx : e.exits[i.val]? = some x) (trigger : x.trigger = .after time)
  (reached : s.entryTime + time ≤ s.now) (first : s.runTimeAt (s.count - 500) < s.entryTime + time)
include h hr ht hc he hx trigger reached first

theorem afterDue_reached : afterDue i s = true := by
  have judged := judgedState_sampled (entryDue_untaken ht)
  refine (afterDue_iff h.1 i).2 ?_
  rw [judged.sq, judged.st, judged.entryTime, judged.runTimeAt, judged.runTimeAt]
  exact ⟨⟨h, hr, ht⟩, n, e, x, time, hc, he, hx, trigger, reached, .inr first⟩

/-- Where no exit of lower index can match, the sample takes the exit. -/
theorem gridInstant_takes (hg : s.sq.guard = none) (entry : s.sq.entrySample = false)
    (lower : ∀ j y, j < i.val → e.exits[j]? = some y →
      (∀ b, y.trigger ≠ .breaker b) ∧ ∀ a, y.trigger = .after a → s.now < s.entryTime + a)
    (hv : spared s.al.v) (hi : spared s.al.i) :
    (settle (gridInstant s)).sq =
      { (takeExit i.val x s.now none (assessedWork s)).sq with entrySample := false } := by
  have due := entryDue_untaken ht
  obtain ⟨sq, st, entryTime, now⟩ := assessedWork_stands due
  have fires : sampleMatches (assessedWork s) s.count (gridWork s).2.2 x.trigger = true := by
    rw [trigger]
    refine (afterFires_iff (assessedWork s) s.count time).2 ?_
    rw [entryTime, now, now]
    exact ⟨reached, .inr first⟩
  have lowest : firstMatch (sampleMatches (assessedWork s) s.count (gridWork s).2.2) e.exits = some (x, i.val) :=
    firstMatch_some hx fires fun j y hj hy => by
      obtain ⟨quiet, early⟩ := lower j y hj hy
      refine sampleMatches_none (by rw [sq]; exact entry) quiet fun a named => ?_
      rw [entryTime, now]
      exact early a named
  have takes := judgeSample_takes (by rw [sq]; exact hr) (by rw [sq]; exact ht) (by rw [sq]; exact hc)
    (by rw [st]; exact he) lowest (by rw [sq]; exact hg)
  have here : (assessedWork s).runTimeAt s.count = s.now := now s.count
  rw [gridInstant_judged due h hv hi, takes, here]

end

/-! ## The advance of R (R76) -/

theorem clipEpisode_reference (t : Nat) (s : State) (ch : Fin 8) :
    (clipEpisode t s ch).ws.r = s.ws.r ∧ (clipEpisode t s ch).ws.dRef = s.ws.dRef := by
  unfold clipEpisode
  dsimp only
  split
  · simp
  · split <;> simp

theorem clipEpisodes_reference (t : Nat) (s : State) :
    (clipEpisodes t s).ws.r = s.ws.r ∧ (clipEpisodes t s).ws.dRef = s.ws.dRef := by
  unfold clipEpisodes
  constructor
  · exact foldl_keeps (g := fun u => u.ws.r) (fun u ch => (clipEpisode_reference t u ch).1) _ s
  · exact foldl_keeps (g := fun u => u.ws.dRef) (fun u ch => (clipEpisode_reference t u ch).2) _ s

theorem dropDcAtEntry_reference (s : State) :
    (dropDcAtEntry s).ws.r = s.ws.r ∧ (dropDcAtEntry s).ws.dRef = s.ws.dRef := by
  unfold dropDcAtEntry
  split <;> exact ⟨rfl, rfl⟩

theorem chargeSpring_ws (t : Nat) (s : State) : (chargeSpring t s).ws = s.ws := by
  have e := ws_of_bare (chargeSpring_bare t s)
  exact e

theorem judgeDiscrepancy_ws (t : Nat) (s : State) : (judgeDiscrepancy t s).ws = s.ws := by
  obtain ⟨phase, judged⟩ := judgeDiscrepancy_bare t s
  have e := ws_of_bare judged
  exact e

theorem advanceAll_r (s : State) : (advanceAll s).ws.r = s.ws.r + s.ws.dRef := rfl

theorem computeSample_r (t : Nat) (s : State) : (computeSample t s).1.ws.r = s.ws.r + s.ws.dRef := by
  have clipped := clipEpisodes_reference t (interruptPoles t (dropDcAtEntry (breakerExpiries t s)))
  have dropped := dropDcAtEntry_reference (breakerExpiries t s)
  rw [(interruptAll t _).ws, dropped.1, dropped.2, (breakerExpiries_positioned t s).ws] at clipped
  rw [computeSample_eq, refreshOutputs_ws, judgeDiscrepancy_ws, chargeSpring_ws, advanceAll_r, clipped.1, clipped.2]

theorem settle_ws (s : State) : (settle s).ws = s.ws := by
  unfold settle arbitrate
  repeat' split
  all_goals rfl

theorem handCodes_r (done : State × Vector Int 8) : (handCodes done).ws.r = done.1.ws.r := rfl

/-- Outside RUNNING, or after an exit, the events of a sample reach the assessment unit alone. -/
theorem judgeSampleEvents_unjudged {count : Nat} {events : List BreakerEvent} {s : State}
    (h : ¬ (s.sq.state = .running ∧ s.sq.taken = none)) :
    (judgeSampleEvents count events s).ws = s.ws ∧
      (judgeSampleEvents count events s).sq = { s.sq with entrySample := false } := by
  have assessed := assessBreakerEvents_assessed events (s.runTimeAt count) (s.runTimeAt count) s
  have stands {u : State} (sq : u.sq = s.sq) : judgeSample count events u = u := by
    unfold judgeSample
    exact if_neg (mt (judges_iff u).1 (by rwa [sq]))
  unfold judgeSampleEvents
  dsimp only
  rw [stands assessed.sq, assessed.sq]
  exact ⟨assessed.ws, rfl⟩

/-- A sample at which nothing is entered or judged advances R and leaves the sequencer, where no link is lost. -/
theorem gridInstant_unjudged {s : State} (h : sampleHere s) (due : entryDue s = none)
    (unjudged : ¬ (s.sq.state = .running ∧ s.sq.taken = none)) (hv : spared s.al.v) (hi : spared s.al.i) :
    (settle (gridInstant s)).sq = { s.sq with entrySample := false } ∧
      (settle (gridInstant s)).ws.r = s.ws.r + s.ws.dRef := by
  have work : (gridWork s).1.sq = s.sq := (gridWork_stands due).sq
  obtain ⟨ws, sq⟩ := judgeSampleEvents_unjudged (count := s.count) (events := (gridWork s).2.2) (s := (gridWork s).1)
    (by rwa [work])
  have al := (judgeSampleEvents_al s.count (gridWork s).2.2 (gridWork s).1).trans (gridWork_al s)
  constructor
  · rw [gridInstant_sq h hv hi, sq, work]
  · have advanced : (gridWork s).1.ws.r = s.ws.r + s.ws.dRef := by
      rw [gridWork_notDue due]
      exact computeSample_r s.now (takeGrid s)
    rw [settle_ws, gridInstant_sample h]
    dsimp only
    rw [frames_spared]
    · dsimp only
      rw [handCodes_r, ws, advanced]
    · rwa [handCodes_al, al]
    · rwa [handCodes_al, al]

/-! ## The statement -/

/-- Settles O47: the AFTER exit at its sample, the taking of an exit, an event judged, the entry at the next sample, and
the wait for the point on the wave. -/
theorem afterExitIsTakenAtItsSample : Obligations.AfterExitIsTakenAtItsSample := by
  refine ⟨fun i n e x time s h hr ht hg entry hc he hx trigger reached first lower hv hi => ?after,
    fun i x time cause s => ⟨applyMarkAction x.action s.sq.marks, fun m => ?marks, ?taken⟩,
    fun m time s => ⟨fun stops => ?unjudged, fun n e hr ht hc he => ?judged⟩,
    fun n e x s h hr ht hx he _ => ?next, fun n e angle x s h hp ht hx he ha => ?pointing⟩
  case after =>
    obtain ⟨sq, st, -, -⟩ := assessedWork_stands (entryDue_untaken ht)
    have after := gridInstant_takes h hr ht hc he hx trigger reached first hg entry lower hv hi
    have run : (settle (gridInstant s)).inRun = (takeExit i.val x s.now none (assessedWork s)).inRun := by
      unfold State.inRun
      rw [after]
    refine ⟨_, exec_due h.1 rfl (afterDue_reached h hr ht hc he hx trigger reached first),
      fun target => ?_, fun m target empty => ?_⟩
    · obtain ⟨state, inRun, left⟩ := takeExit_goesOn i s.now none (s := assessedWork s) (by rw [sq]; exact hr)
        (by rw [st]; exact target)
      rw [run, after, left]
      exact ⟨rfl, inRun.elim (fun running => inRun_of_running running) fun pointing => inRun_of_pointing pointing⟩
    · have outcome := runEnd_lastOutcome .table (leaveBy i x s.now none (assessedWork s).sq.state (assessedWork s))
      rw [run, after, takeExit_empty i s.now none target (by rw [st]; exact empty)]
      exact ⟨runEnd_inRun _ _, outcome⟩
  case marks =>
    refine ⟨fun unmarked => by rw [unmarked]; rfl, fun k set => ?_, fun k clear => ?_⟩
    · rw [set, markSet_get]
    · rw [clear, markClear_get]
  case taken =>
    exact ⟨takeExit_finish i time cause, fun n e => takeExit_ready i time cause, fun n => takeExit_empty i time cause⟩
  case unjudged =>
    refine judgeEvent_unjudged ?_
    rintro ⟨hr, ht⟩
    rw [ht] at stops
    exact stops.elim (fun other => other hr) Bool.false_ne_true
  case judged =>
    refine ⟨fun hn => judgeEvent_unmatched hr ht hc he (firstMatch_none hn), fun i y hy hm lower => ?_⟩
    have lowest := firstMatch_some hy hm lower
    refine ⟨judgeEvent_takes hr ht hc he lowest, fun g hg => ?_⟩
    rw [judgeEvent_latches hr ht hc he lowest hg, latchExit_eq]
    cases g.latch <;> rfl
  case next =>
    have due := entryDue_running ht hx hr
    exact ⟨_, exec_gridInstant h.1 h.2.1, gridInstant_enters h due he, due, beginSample_due due s.now⟩
  case pointing =>
    intro passes
    have reached : pointReached s n = true ↔ passes := pointReached_iff he ha
    have target := entryDue_pointing ht hx hp
    refine ⟨fun hpass => ?_, fun waits hv hi => ?_⟩
    · have due := target.trans (if_pos (reached.2 hpass))
      exact ⟨_, exec_gridInstant h.1 h.2.1, gridInstant_enters h due he, beginSample_due due s.now⟩
    · have due := target.trans (if_neg (mt reached.1 waits))
      have unjudged : ¬ (s.sq.state = .running ∧ s.sq.taken = none) := fun judging => by
        rw [ht] at judging
        cases judging.2
      obtain ⟨sq, r⟩ := gridInstant_unjudged h due unjudged hv hi
      refine ⟨_, exec_gridInstant h.1 h.2.1, ?_, ?_, ?_, ?_, r⟩ <;> rw [sq]
      · exact hp
      · exact ht

end Sys2Proof.Machine

/-! # The report store: the offer of a record (R188 to R193, R200) -/

namespace Sys2Proof.Machine

/-! ## Admission by kind, window and fill (R191, R192, R193) -/

theorem RecordBody.not_boundary {body : RecordBody} (notStart : ∀ m t f q c a b, body ≠ .runStart m t f q c a b)
    (notEnd : ∀ o t v p n l, body ≠ .runEnd o t v p n l) : body.isBoundary = false := by
  cases body with
  | runStart m t f q c a b => exact absurd rfl (notStart m t f q c a b)
  | runEnd o t v p n l => exact absurd rfl (notEnd o t v p n l)
  | _ => rfl

/-- R192: the fill up to which a record that bounds no run is admitted. -/
theorem admits_ordinary {body : RecordBody} {windowOpen : Bool} {fill : Nat} (h : body.isBoundary = false) :
    admits body windowOpen fill = true ↔ fill ≤ if windowOpen then 638 else 639 := by
  have byWindow : admits body windowOpen fill = if windowOpen then decide (fill ≤ 638) else decide (fill ≤ 639) := by
    cases body with
    | runStart | runEnd => cases h
    | _ => rfl
  cases windowOpen <;> simp [byWindow]

section
variable {run time : Nat} {body : RecordBody} {rs : ReportStore}

/-- R188, R192: a record that bounds no run and finds room. -/
theorem offer_ordinary_admitted (hn : rs.nextSeq ≤ topNumber) (h : body.isBoundary = false)
    (room : rs.records.length ≤ if rs.window.isSome then 638 else 639) :
    rs.offer run time body =
      { rs with records := rs.records ++ [⟨rs.nextSeq, run, time, body⟩], nextSeq := rs.nextSeq + 1 } := by
  obtain ⟨opens, closes⟩ := ordinary_windows run rs.window h
  simp only [ReportStore.offer, wrapNumbers_below hn, opens, closes, (admits_ordinary h).2 room, if_true]

/-- R189, R193: a record that bounds no run and finds no room takes its number all the same. -/
theorem offer_ordinary_lost (hn : rs.nextSeq ≤ topNumber) (h : body.isBoundary = false)
    (full : ¬ rs.records.length ≤ if rs.window.isSome then 638 else 639) :
    rs.offer run time body = { rs with nextSeq := rs.nextSeq + 1, window := countLost rs.window } := by
  obtain ⟨opens, -⟩ := ordinary_windows run rs.window h
  have refused : ¬ admits body rs.window.isSome rs.records.length = true := mt (admits_ordinary h).1 full
  simp only [ReportStore.offer, wrapNumbers_below hn, opens, if_neg refused]

end

/-- R191, R193: a RUN_START without room opens the window and is the first record lost in it. -/
theorem offer_runStart_lost {run time : Nat} {m : RunMode} {g : RunTrigger} {n : Fin 24} {f : Nat} {c : Int}
    {sec : Option Nat} {i : Bool} {rs : ReportStore} (hn : rs.nextSeq ≤ topNumber) (full : 638 < rs.records.length) :
    rs.offer run time (.runStart m g n f c sec i) =
      { rs with nextSeq := rs.nextSeq + 1, window := some ⟨run, 1⟩ } := by
  simp [ReportStore.offer, wrapNumbers_below hn, openWindow, countLost, admits, full, topNumber]

/-! ## The number wrap (R189) -/

theorem wrapNumbers_above {rs : ReportStore} (h : topNumber < rs.nextSeq) :
    wrapNumbers rs =
      { records := [], nextSeq := 1, fillArmed := true
        window := rs.window.map fun w =>
          { w with lost := min topNumber (w.lost + (rs.records.filter fun r => r.run = w.run).length) } } :=
  if_neg (Nat.not_le.2 h)

theorem wrapNumbers_nextSeq_le (rs : ReportStore) : (wrapNumbers rs).nextSeq ≤ topNumber := by
  by_cases h : rs.nextSeq ≤ topNumber
  · rwa [wrapNumbers_below h]
  · rw [wrapNumbers_above (Nat.not_le.1 h)]
    show 1 ≤ topNumber
    decide

/-- An offer is the offer to the store whose numbers have wrapped. -/
theorem offer_wrapNumbers (run time : Nat) (body : RecordBody) (rs : ReportStore) :
    (wrapNumbers rs).offer run time body = rs.offer run time body := by
  simp only [ReportStore.offer, wrapNumbers_below (wrapNumbers_nextSeq_le rs)]

/-! ## The FILL notice (R200) -/

/-- Below the number wrap an offer leaves the arming of the fill notice. -/
theorem offer_fillArmed {run time : Nat} {body : RecordBody} {rs : ReportStore} (hn : rs.nextSeq ≤ topNumber) :
    (rs.offer run time body).fillArmed = rs.fillArmed := by
  simp only [ReportStore.offer, wrapNumbers_below hn]
  split <;> rfl

theorem judgeFill_raises {grew : Bool} {s : State} (h : grew ∧ s.fill = 480 ∧ s.rs.fillArmed) :
    judgeFill grew s = raiseNotice .fill { s with rs := { s.rs with fillArmed := false } } := if_pos h

theorem judgeFill_quiet {grew : Bool} {s : State} (h : ¬ (grew ∧ s.fill = 480 ∧ s.rs.fillArmed)) :
    judgeFill grew s = s := if_neg h

/-- The condition of the FILL notice, by the fill before and after the offer. -/
theorem fill_reached {run time : Nat} {body : RecordBody} {rs : ReportStore} (hn : rs.nextSeq ≤ topNumber) :
    (decide ((rs.offer run time body).records.length = (wrapNumbers rs).records.length + 1) = true ∧
        (rs.offer run time body).records.length = 480 ∧ (rs.offer run time body).fillArmed = true) ↔
      rs.records.length = 479 ∧ (rs.offer run time body).records.length = 480 ∧ rs.fillArmed = true := by
  rw [decide_eq_true_eq, wrapNumbers_below hn, offer_fillArmed hn]
  constructor
  · rintro ⟨grew, fill, armed⟩
    exact ⟨by omega, fill, armed⟩
  · rintro ⟨before, fill, armed⟩
    exact ⟨by omega, fill, armed⟩

/-! ## The statement -/

/-- Settles O55: an ordinary record by window and fill, RUN_END, RUN_START, the number wrap, and the FILL notice. -/
theorem offersAreNumberedAndAdmitted : Obligations.OffersAreNumberedAndAdmitted := by
  refine ⟨fun run time body rs hn notStart notEnd => ?ordinary, fun run time o t v p n l rs hn => ?runEnd,
    fun run time m g n f c a h rs hn => ⟨offer_runStart_eq hn, offer_runStart_lost hn⟩,
    fun run time body rs above => ?wrap, fun run time body s hn => ?fill⟩
  case ordinary =>
    have ordinary := RecordBody.not_boundary notStart notEnd
    refine ⟨fun closed room => ?_, fun closed full => ?_, fun w opened room => ?_, fun w opened full => ?_⟩
    · exact offer_ordinary_admitted hn ordinary (by simpa [closed] using room)
    · rw [offer_ordinary_lost hn ordinary (by simpa [closed] using full), closed]
      rfl
    · exact offer_ordinary_admitted hn ordinary (by simpa [opened] using room)
    · rw [offer_ordinary_lost hn ordinary (by simpa [opened] using full), opened]
      rfl
  case runEnd =>
    rw [offer_runEnd_eq, wrapNumbers_below hn]
  case wrap =>
    rw [← offer_wrapNumbers, wrapNumbers_above above]
    rfl
  case fill =>
    have reached := fill_reached (run := run) (time := time) (body := body) hn
    exact ⟨fun raises => judgeFill_raises (reached.2 raises), fun quiet => judgeFill_quiet (mt reached.1 quiet)⟩

end Sys2Proof.Machine

/-! # The report store: the bytes of a record (R190, R195, R196, R205) -/

namespace Sys2Proof.Machine

/-! ## The presence mask (R196) -/

/-- A bit set read from its lowest bit. -/
theorem bitsOf_succ_low (n : Nat) (f : Nat → Bool) :
    bitsOf (n + 1) f = (if f 0 then 1 else 0) + 2 * bitsOf n fun k => f (k + 1) := by
  induction n with
  | zero => simp [bitsOf]
  | succ n ih =>
    rw [bitsOf, ih, bitsOf, mul_add, add_assoc]
    congr 2
    split
    · rw [pow_succ, mul_comm]
    · rfl

theorem bitsOf_false (n : Nat) : bitsOf n (fun _ => false) = 0 := by
  induction n with
  | zero => rfl
  | succ n ih => simp [bitsOf, ih]

/-- The mask of a list of flags is its bit set, however many further bits are read. -/
theorem bitsOf_getD {l : List Bool} {n : Nat} (h : l.length ≤ n) : bitsOf n (fun k => l.getD k false) = maskOf l := by
  induction l generalizing n with
  | nil => exact bitsOf_false n
  | cons present rest ih =>
    cases n with
    | zero => simp at h
    | succ n =>
      rw [bitsOf_succ_low, maskOf]
      simp only [List.getD_cons_zero, List.getD_cons_succ, ih (Nat.le_of_succ_le_succ h)]

theorem presenceMask_eq (body : RecordBody) : presenceMask body = maskOf (presenceFlags body) := by
  have few : (presenceFlags body).length ≤ 8 := by cases body <;> simp [presenceFlags]
  exact bitsOf_getD few

/-! ## The codes of the fields (R195, R205) -/

theorem RunMode.code_eq (x : RunMode) : x.code = codeIn [.single, .repeated, .triggered] x := by cases x <;> rfl

theorem RunTrigger.code_eq (x : RunTrigger) : x.code = codeIn [.immediate, .go, .sync, .atSecond] x := by
  cases x <;> rfl

theorem Direction.code_eq (x : Direction) : x.code = codeIn [.inactive, .active] x := by cases x <;> rfl

theorem BreakerSubject.code_eq (x : BreakerSubject) :
    x.code = codeIn [.pole .a, .pole .b, .pole .c, .mechanism] x := by
  rcases x with (_ | _ | _) | _ <;> rfl

theorem BreakerRecord.code_eq (x : BreakerRecord) :
    x.code = codeIn [.tripAccepted, .contactsParted, .interrupted, .interruptedForced, .tripFree, .closed, .resolved,
      .closeAccepted, .closeBlocked, .closeRefused, .allClosed, .springCharged, .discrepancyTrip] x := by
  cases x <;> rfl

theorem Decision.code_eq (x : Decision) :
    x.code = codeIn [.early, .pass, .late, .missing, .fail, .abandoned] x := by cases x <;> rfl

theorem groupCode_eq (x : Group) : groupCode x = codeIn [.v, .i] x := by cases x <;> rfl

theorem AmpEvent.code_eq (x : AmpEvent) : x.code = codeIn [.linkLost, .overTemp, .overload] x := by cases x <;> rfl

theorem TimeEvent.code_eq (x : TimeEvent) :
    x.code = codeIn [.holdover, .relocked, .calDone, .calRejected, .calFailed, .epochSet] x := by cases x <;> rfl

theorem RunOutcome.code_eq (x : RunOutcome) :
    x.code = codeIn [.complete, .halted, .ampFault, .table, .limit] x := by cases x <;> rfl

theorem boolCode_eq (b : Bool) : boolCode b = codeIn [false, true] b := by cases b <;> rfl

theorem boolCode_not_eq (b : Bool) : boolCode (!b) = codeIn [true, false] b := by cases b <;> rfl

theorem optBytes_eq {α : Type} (f : α → List Byte) (x : Option α) : optBytes f x = x.elim [] f := by cases x <;> rfl

/-- R195, R205: kind, presence mask and body of a record are those of its kind's layout. -/
theorem recordGiven_eq (body : RecordBody) : recordGiven body = (body.kindCode, presenceMask body, body.bytes) := by
  rw [presenceMask_eq]
  cases body with
  | runStart mode trigger =>
    simp only [RecordBody.bytes, RunMode.code_eq mode, RunTrigger.code_eq trigger, boolCode_eq, optBytes_eq]
    rfl
  | stateEntry =>
    simp only [RecordBody.bytes, optBytes_eq]
    rfl
  | inputEdge input direction =>
    simp only [RecordBody.bytes, Direction.code_eq direction, boolCode_eq]
    rfl
  | breaker subject event =>
    simp only [RecordBody.bytes, BreakerSubject.code_eq subject, BreakerRecord.code_eq event, optBytes_eq]
    rfl
  | assess state visit item outcome =>
    simp only [RecordBody.bytes, Decision.code_eq outcome, optBytes_eq]
    rfl
  | clip =>
    simp only [RecordBody.bytes, boolCode_not_eq, optBytes_eq]
    rfl
  | amp group event =>
    simp only [RecordBody.bytes, groupCode_eq group, AmpEvent.code_eq event, optBytes_eq]
    rfl
  | time event =>
    simp only [RecordBody.bytes, TimeEvent.code_eq event, optBytes_eq]
    rfl
  | runEnd outcome =>
    simp only [RecordBody.bytes, RunOutcome.code_eq outcome]
    rfl

/-! ## The length of a record (R190, R205) -/

theorem optBytes_length_le {α : Type} {f : α → List Byte} {k : Nat} (h : ∀ a, (f a).length = k) (x : Option α) :
    (optBytes f x).length ≤ k := by
  cases x with
  | none => exact Nat.zero_le k
  | some a => exact (h a).le

/-- The shortest body is a TIME without optional fields, the longest that of a RUN_END. -/
theorem RecordBody.bytes_length (body : RecordBody) : 1 ≤ body.bytes.length ∧ body.bytes.length ≤ 21 := by
  cases body with
  | runStart mode trigger first frequency cRun second =>
    have absolute := optBytes_length_le (leBytes_length 4) second
    simp only [RecordBody.bytes, List.length_append, byteOf_length, leBytes_length, leSigned_length]
    omega
  | stateEntry state visit entryTime fromState exitIndex exitTime causeTime =>
    have origin := optBytes_length_le (fun n : Fin 24 => byteOf_length n.val) fromState
    have index := optBytes_length_le (fun n : Fin 6 => byteOf_length n.val) exitIndex
    have exit := optBytes_length_le (leBytes_length 4) exitTime
    have cause := optBytes_length_le (leBytes_length 4) causeTime
    simp only [RecordBody.bytes, List.length_append, byteOf_length, leBytes_length]
    omega
  | inputEdge | runEnd =>
    simp only [RecordBody.bytes, List.length_append, byteOf_length, leBytes_length]
    omega
  | breaker subject event duration =>
    have lasted := optBytes_length_le (leBytes_length 4) duration
    simp only [RecordBody.bytes, List.length_append, byteOf_length]
    omega
  | assess state visit item outcome measured =>
    have time := optBytes_length_le (leSigned_length 8) measured
    simp only [RecordBody.bytes, List.length_append, byteOf_length, leBytes_length]
    omega
  | clip channel start yRaw =>
    have value := optBytes_length_le (leSigned_length 4) yRaw
    simp only [RecordBody.bytes, List.length_append, byteOf_length]
    omega
  | amp group event channel =>
    have named := optBytes_length_le (fun n : Fin 8 => byteOf_length n.val) channel
    simp only [RecordBody.bytes, List.length_append, byteOf_length]
    omega
  | time event correction second =>
    have corrected := optBytes_length_le (leSigned_length 4) correction
    have placed := optBytes_length_le (leBytes_length 4) second
    simp only [RecordBody.bytes, List.length_append, byteOf_length]
    omega

theorem Record.bytes_length (r : Record) : r.bytes.length = 13 + r.body.bytes.length := by
  simp only [Record.bytes, List.length_append, byteOf_length, leBytes_length]

theorem recordLaidOut_bytes (r : Record) : recordLaidOut r := by
  have body := r.body.bytes_length
  unfold recordLaidOut
  rw [recordGiven_eq, r.bytes_length]
  exact ⟨rfl, by omega, by omega⟩

end Sys2Proof.Machine

/-! # REPREAD (R198, R200) -/

namespace Sys2Proof.Machine

/-- R6: a field is limited exactly where it lies outside its range. -/
theorem clampStatus_clampNat (lo hi x : Nat) :
    clampStatus (clampNat lo hi x ≠ x) = if lo ≤ x ∧ x ≤ hi then .ok else .clamped := by
  refine clampStatus_of_iff ?_
  rw [decide_eq_true_eq]
  unfold clampNat
  split
  · omega
  · split <;> omega

/-- Above the greatest number the model's free value is shown (log 19). -/
theorem shownNextSeq_toNat (rs : ReportStore) :
    (shownNextSeq rs).toNat = if rs.nextSeq ≤ topNumber then rs.nextSeq else Config.nextSeqAtTop.toNat := by
  unfold shownNextSeq
  split
  · next below => exact (BitVec.toNat_ofNat rs.nextSeq 32).trans (Nat.mod_eq_of_lt (Nat.lt_succ_of_le below))
  · rfl

theorem takeOldest_length (m : Nat) (rs : ReportStore) : (rs.takeOldest m).records.length = rs.records.length - m :=
  List.length_drop

/-- Settles O56: REPREAD by what its request comes to, then the layout of every record. -/
theorem repreadTakesTheOldest : Obligations.RepreadTakesTheOldest := by
  refine ⟨fun tag n s listens => ?_, fun seq run time body => recordLaidOut_bytes _⟩
  intro k m rest armed shown
  have number : (shownNextSeq (s.rs.takeOldest m)).toNat = shown := shownNextSeq_toNat _
  rw [exec_requestOf rfl, ← clampStatus_clampNat, ← number, ← takeOldest_length]
  exact act_answer (t := takeReport m s) listens (fun _ => rfl) rfl

end Sys2Proof.Machine

/-! # Request bodies, field by field (R202, R203) -/

namespace Sys2Proof.Machine

/-! ## A body of the one length its kind has (R6, R202) -/

section
variable {kind : Byte} {body : List Byte}

theorem parseRequest_fixed {n : Nat} (h : requestLengths kind.toNat = some (n, n)) (hb : body.length = n) :
    parseRequest kind body = readRequest kind.toNat body := by
  simp only [parseRequest, h, if_pos (And.intro hb.ge hb.le)]

end

/-! ## A field that stands in a body is read back whole -/

section
variable {body : List Byte} {o : Nat}

theorem byteAt_of_bodyByte {b : Byte} (h : bodyByte body o = b.toNat) : byteAt body o = b :=
  BitVec.eq_of_toNat_eq ((byteAt_toNat body o).trans h)

theorem halfAt_of_standsAt {x : Half} (h : standsAt body o (leBytes 2 x.toNat)) : halfAt body o = x :=
  BitVec.eq_of_toNat_eq ((halfAt_toNat body o).trans (bodyHalf_of_standsAt h x.isLt))

theorem wordAt_of_standsAt {x : Word} (h : standsAt body o (leBytes 4 x.toNat)) : wordAt body o = x :=
  BitVec.eq_of_toNat_eq ((wordAt_toNat body o).trans (bodyWord_of_standsAt h x.isLt))

end

/-! ## The kinds with fields wider than a byte

Each body is cut at its fields, every field at the offset that the widths before it add up to. -/

section
variable {body : List Byte}

theorem readRequest_chanset {channel mode : Byte} {limit gain offset : Half}
    (laid : standsAt body 0
      ([channel] ++ leBytes 2 limit.toNat ++ leBytes 2 gain.toNat ++ leBytes 2 offset.toNat ++ [mode])) :
    readRequest 0x10 body = .chanset channel limit gain offset mode := by
  simp only [standsAt_append, standsAt_cons, standsAt_nil, and_true, and_assoc, List.length_append,
    List.length_singleton, leBytes_length, Nat.reduceAdd] at laid
  obtain ⟨h0, h1, h3, h5, h7⟩ := laid
  rw [readRequest, byteAt_of_bodyByte h0, halfAt_of_standsAt h1, halfAt_of_standsAt h3, halfAt_of_standsAt h5,
    byteAt_of_bodyByte h7]

theorem readRequest_inset {input mode polarity role : Byte} {window : Half}
    (laid : standsAt body 0 ([input, mode, polarity, role] ++ leBytes 2 window.toNat)) :
    readRequest 0x11 body = .inset input mode polarity role window := by
  simp only [standsAt_append, standsAt_cons, standsAt_nil, and_true, and_assoc, List.length_cons, List.length_nil,
    Nat.reduceAdd] at laid
  obtain ⟨h0, h1, h2, h3, h4⟩ := laid
  rw [readRequest, byteAt_of_bodyByte h0, byteAt_of_bodyByte h1, byteAt_of_bodyByte h2, byteAt_of_bodyByte h3,
    halfAt_of_standsAt h4]

theorem readRequest_brkset {openA openB openC closing arcing charge discrepancy : Word} {side : Byte} {amp : Half}
    {initialA initialB initialC spring : Byte}
    (laid : standsAt body 0
      (leBytes 4 openA.toNat ++ leBytes 4 openB.toNat ++ leBytes 4 openC.toNat ++ leBytes 4 closing.toNat ++
        leBytes 4 arcing.toNat ++ leBytes 4 charge.toNat ++ leBytes 4 discrepancy.toNat ++ [side] ++
        leBytes 2 amp.toNat ++ [initialA, initialB, initialC, spring])) :
    readRequest 0x15 body =
      .brkset openA openB openC closing arcing charge discrepancy side amp initialA initialB initialC spring := by
  simp only [standsAt_append, standsAt_cons, standsAt_nil, and_true, and_assoc, List.length_append,
    List.length_singleton, leBytes_length, Nat.reduceAdd] at laid
  obtain ⟨h0, h4, h8, h12, h16, h20, h24, h28, h29, h31, h32, h33, h34⟩ := laid
  rw [readRequest, wordAt_of_standsAt h0, wordAt_of_standsAt h4, wordAt_of_standsAt h8, wordAt_of_standsAt h12,
    wordAt_of_standsAt h16, wordAt_of_standsAt h20, wordAt_of_standsAt h24, byteAt_of_bodyByte h28,
    halfAt_of_standsAt h29, byteAt_of_bodyByte h31, byteAt_of_bodyByte h32, byteAt_of_bodyByte h33,
    byteAt_of_bodyByte h34]

theorem readRequest_run {mode trigger first overload : Byte} {count : Half} {gap second frequency : Word}
    (laid : standsAt body 0
      ([mode] ++ leBytes 2 count.toNat ++ leBytes 4 gap.toNat ++ [trigger] ++ leBytes 4 second.toNat ++ [first] ++
        leBytes 4 frequency.toNat ++ [overload])) :
    readRequest 0x30 body = .run mode count gap trigger second first frequency overload := by
  simp only [standsAt_append, standsAt_cons, standsAt_nil, and_true, and_assoc, List.length_append,
    List.length_singleton, leBytes_length, Nat.reduceAdd] at laid
  obtain ⟨h0, h1, h3, h7, h8, h12, h13, h17⟩ := laid
  rw [readRequest, byteAt_of_bodyByte h0, halfAt_of_standsAt h1, wordAt_of_standsAt h3, byteAt_of_bodyByte h7,
    wordAt_of_standsAt h8, byteAt_of_bodyByte h12, wordAt_of_standsAt h13, byteAt_of_bodyByte h17]

theorem readRequest_tsec {n : Word} (laid : standsAt body 0 (leBytes 4 n.toNat)) : readRequest 0x3A body = .tsec n := by
  rw [readRequest, wordAt_of_standsAt laid]

end

/-- Settles O3: each body has its kind's length, and a wide field is read back where it stands; a body of single
bytes is read byte by byte. -/
theorem requestBodiesReadBack : Obligations.RequestBodiesReadBack := by
  refine ⟨?ident, ?status, ?reset, fun ch l g o m => ?chanset, fun n m p r w => ?inset, fun n l => ?inject,
    fun g => ?ampon, fun g => ?ampoff, fun a b c d e f g side amp x y z w => ?brkset, fun n x b => ?outset,
    fun body least greatest => ?stwrite, fun n => ?stread, fun n => ?stclear, fun c x p => ?cntset,
    fun m n gap t second first f a => ?run, ?halt, ?go, fun k => ?tcal, ?tcalx, fun n => ?tsec, fun n => ?repread⟩
  case chanset => exact (parseRequest_fixed rfl rfl).trans (readRequest_chanset (standsAt_whole rfl))
  case inset => exact (parseRequest_fixed rfl rfl).trans (readRequest_inset (standsAt_whole rfl))
  case brkset => exact (parseRequest_fixed rfl rfl).trans (readRequest_brkset (standsAt_whole rfl))
  case run => exact (parseRequest_fixed rfl rfl).trans (readRequest_run (standsAt_whole rfl))
  case tsec => exact (parseRequest_fixed rfl rfl).trans (readRequest_tsec (standsAt_whole rfl))
  case stwrite => exact parseRequest_stwrite ⟨least, greatest⟩
  case ident | status | reset | halt | go | tcalx | inject | ampon | ampoff | outset | stread | stclear | cntset |
      tcal | repread =>
    exact parseRequest_fixed rfl rfl

end Sys2Proof.Machine

/-! # The command in front of the queue (log 1) -/

namespace Sys2Proof.Machine

/-- The row of `step` for a queue that is not empty; `step_due` and `step_idle` are those for an empty one. -/
theorem step_pending {c : Instr} {rest : List Instr} {s : State} (h : s.pending = c :: rest) :
    step s = exec c { s with pending := rest } := by
  simp only [step, h]

/-- Settles O1, in every state: on an asserted RESET line too it is `exec` that says what the command does. -/
theorem stepRunsTheCommandInFront : Obligations.StepRunsTheCommandInFront :=
  fun _ _ _ inFront => step_pending inFront

end Sys2Proof.Machine
